-- ==== Sys2Proof/Word.lean ====
section
/-! DEFINITION. The word types of the KF740 and the names its commands and its state are made of: ports, lamps,
causes, capture states, images. Nothing here changes a state. -/

namespace Sys2Proof

/-- A word of the Shared Report RAM: 16 bits (spec 00, "Words and addresses"). -/
abbrev Word := BitVec 16

/-- A byte of an SPI transaction. -/
abbrev Byte := BitVec 8

/-- A ride-clock value: a 32-bit count of ticks of 10 ms (R134). -/
abbrev Time := BitVec 32

/-- A fault number of the fault status table (R50). -/
abbrev FaultNo := Fin 128

/-- A buffer of the frame pool (R85). -/
abbrev BufNo := Fin 24

/-- A record slot of event memory (R105). -/
abbrev SlotNo := Fin 16

/-- The two ports: Port E of the engine controller, Port A of the brake controller. The queue, the context
ring, the service area and the attention area of a port carry its name (spec 00, "Controllers and ports"). -/
inductive Port
  | e
  | a
  deriving DecidableEq, Repr

/-- One thing for each port. -/
structure Both (α : Type) where
  e : α
  a : α
  deriving DecidableEq, Repr

def Both.get {α : Type} (b : Both α) : Port → α
  | .e => b.e
  | .a => b.a

def Both.set {α : Type} (b : Both α) (p : Port) (x : α) : Both α :=
  match p with
  | .e => { b with e := x }
  | .a => { b with a := x }

/-- The two warning lamps: LAMPE and LAMPA (spec 09). -/
inductive Lamp
  | engine
  | abs
  deriving DecidableEq, Repr

/-- The lamp field of a definition and of a record: 0 none, 1 engine, 2 ABS, 3 both (R16, R18). -/
inductive LampField
  | none
  | engine
  | abs
  | both
  deriving DecidableEq, Repr

/-- The pattern field: 0 STEADY, 1 SLOW (R16, R18). -/
inductive Pattern
  | steady
  | slow
  deriving DecidableEq, Repr

/-- The state of a context ring: 0 QUIET, 1 LIVE, 2 STALLED (R4, R78). -/
inductive RingState
  | quiet
  | live
  | stalled
  deriving DecidableEq, Repr

/-- The eleven causes of attention (R3), in the order of their bits. -/
inductive Cause
  | overrun
  | access
  | reject
  | confirm
  | stall
  | lamp
  | reqdone
  | store
  | saved
  | qfull
  | qempty
  deriving DecidableEq, Repr

/-- The state of a capture with, once CLOSED, its status: OPEN, CLOSED COMPLETE or CLOSED SHORT (R85, R95). -/
inductive CaptureState
  | opened
  | complete
  | short
  deriving DecidableEq, Repr

/-- What names one episode of a fault: its trigger time T and the episode number that every trigger, notice
and direction carries with T (R64). Two match when both are equal. -/
structure EpisodeId where
  number : Word
  time   : Time
  deriving DecidableEq, Repr

/-- What the capture-lost notice carries of the capture beside its fault (R70): the trigger time, with the episode number of
R64, and the buffer concerned: the one that a newcomer takes over (R88), and none where the trigger found no buffer (R89),
so that the capture never had one. -/
structure LostCapture where
  episode : EpisodeId
  buffer  : Option BufNo
  deriving DecidableEq, Repr

/-- The 17 non-volatile images: the header and one for each record slot (R152). -/
inductive ImageId
  | header
  | slot (s : SlotNo)
  deriving DecidableEq, Repr

/-- How a READ or WRITE command stands to the port's transaction (R6, R8, R9). `opens`: chip select falls, the
command byte and both address bytes are taken, and the burst begins at that 16-bit start address. `cut`: chip
select falls and the command byte is taken with so many complete bytes after it, and chip select rises before both
address bytes are complete. `continues`: further words of the burst that the port is in. -/
inductive Burst
  | opens (address : Word)
  | cut (bytes : Nat)
  | continues
  deriving DecidableEq, Repr

/-- What the clocks after the address of a READ or WRITE carry: the words that are complete, and whether one more
complete byte was clocked, the first of a word that chip select cut off (R8, R9). -/
structure Clocked (α : Type) where
  whole : α
  half  : Bool
  deriving DecidableEq, Repr

/-- What an event carries, and the fault of the qualifier event on account of which another block raised it, if there is
one (R64, R77). The account is the model's own; no meaning reads it (notes/assumptions/21.md). -/
structure Accounted (α : Type) where
  what    : α
  account : Option FaultNo
  deriving DecidableEq, Repr

/-- A SWAP transaction (R10): whole, with its address, compare word and new word, and the count of bytes clocked
after the new word (the old word comes out in the first two); or cut, the chip select rising before the new word
is complete, with so many complete bytes after the command byte. -/
inductive SwapForm
  | whole (address compare new : Word) (extra : Nat)
  | cut (bytes : Nat)
  deriving DecidableEq, Repr

/-- Which of the two watched mask words a mask change concerns (R12, R183). -/
inductive MaskWord
  | enable
  | polarity
  deriving DecidableEq, Repr

/-- The two edges of RIDE of which the Frame Capture Unit is told (R129). -/
inductive RideEdge
  | entered
  | left
  deriving DecidableEq, Repr

end Sys2Proof
end

