-- ==== Sys2Proof/Config.lean ====
section
/-! DEFINITION. What one part has fixed: the identity words, the constants of the rules, and the one value that
the manual leaves open (which words of a torn image had been written), as a constant with no body. -/

namespace Sys2Proof.Config

/-- Part code, word 0x0000 (R2). -/
def partCode : Word := 0x0740

/-- Silicon revision, word 0x0001: 1 for the silicon the manual describes (R2). -/
def revision : Word := 1

/-- Words of the SRR (R1). -/
def srrWords : Nat := 16384

/-- The sum that every image's words come to, and the check word of the erased image (R153). -/
def imageSum : Word := 0xA55A

/-- The format mark of the header image (R153). -/
def formatMark : Word := 0x4B07

/-- Words of a slot image: the record part and the frame part (R152). -/
def slotImageWords : Nat := 280

/-- Ticks of a capture's window (R85), of the bulb check (R142) and of the stall timer (R83). -/
def windowTicks : Nat := 200
def bulbTicks : Nat := 200
def stallTicks : Nat := 50

/-- The capacity that a part reset gives every queue and ring (R22). -/
def resetCapacity : Nat := 16

/-- Qualification: 6000 engine-run ticks and 320 sixteenths of a km/h (R141); the engine runs from 400 rpm, a gap
between samples credits at most 50 ticks (R138), and the motorcycle moves from 48 sixteenths (R140). -/
def qualifyingTicks : Nat := 6000
def qualifyingSpeed : Nat := 320
def runningRpm : Nat := 400
def gapCap : Nat := 50
def movingSpeed : Nat := 48

/-- FREE VALUE (notes/assumptions/7.md). An image write that a part reset cuts off leaves "the words of the new
content written so far and the old content in the rest" (R160): which words had been written is not said.
`tornWritten n i` is whether word `i` had been written when the `n`-th write was cut off. -/
opaque tornWritten : Nat → Nat → Bool

end Sys2Proof.Config
end

