-- ==== Sys2Proof/Syntax.lean ====
section
/-! DEFINITION. The commands of the KF740: one constructor for each row of spec/opcode_table.json, in the table's
order. A command of a port carries the port and what its transaction carries. An event at a block carries what the rule
that raises it says it carries; an event that the block takes on its own account carries no more than its subject. Three
events carry beside that the account on which another block raised them, which is the model's own
(notes/assumptions/21.md). -/

namespace Sys2Proof

inductive Instr
  -- port commands (spec 01)
  | read (port : Port) (burst : Burst) (count : Clocked Nat)
  | write (port : Port) (burst : Burst) (words : Clocked (List Word))
  | swap (port : Port) (form : SwapForm)
  | status (port : Port) (opens : Bool) (count : Nat)
  | restart (port : Port) (extraBits : Nat)
  | badCommand (port : Port) (byte : Byte) (extra : Nat)
  -- Symptom Intake (spec 03)
  | topTaken (port : Port) (top : Word)
  | levelReEvaluation (port : Port) (level : Word)
  | recordTake (port : Port)
  | queueDrained (port : Port)
  | intakeRestart (port : Port)
  -- rings and qualification (spec 05, 07)
  | headWritten (port : Port) (head : Word)
  | qualificationArrival (ring : Port) (time : Time) (ch0 : Word)
  | ringStateReport (ring : Port) (state : RingState)
  | stallTimerExpiry (ring : Port)
  | fcuModeNotice (edge : RideEdge)
  | ringRestart (port : Port)
  -- Frame Capture Unit (spec 05)
  | trigger (fault : FaultNo) (episode : EpisodeId) (ring : Port) (pre post priority : BitVec 4)
  | deadlineExpiry (buffer : BufNo)
  | confirmNotice (fault : FaultNo) (episode : EpisodeId)
  | episodeClose (fault : FaultNo) (episode : EpisodeId)
  | entryResetDiscard (fault : FaultNo) (buffer : BufNo)
  | attachDirection (fault : FaultNo) (episode : EpisodeId) (slot : SlotNo)
  | discardDirection (fault : FaultNo) (episode : EpisodeId)
  | bufferFree (slot : SlotNo) (buffer : Accounted (Option BufNo))
  | captureUnitClear (fault : FaultNo)
  | fcuRideEndEvent
  -- Fault Qualifier (spec 04)
  | captureOpened (fault : FaultNo) (buffer : BufNo) (episode : EpisodeId)
  | captureLost (fault : FaultNo) (lost : LostCapture)
  | captureReleased (fault : FaultNo) (buffer : BufNo) (episode : EpisodeId)
  | slotNotice (fault : FaultNo) (slot : Option SlotNo) (unstored : Option Bool)
  | qualifierClear (fault : FaultNo)
  | suspectCount
  -- Event Memory Manager (spec 06)
  | confirmEvent (fault : FaultNo) (episode : EpisodeId) (time : Time) (priority : BitVec 4) (lamp : LampField) (pattern : Pattern) (ringNone : Bool)
  | heal (fault : FaultNo)
  | frameChangeNotice (slot : SlotNo) (buffer : BufNo) (fault : FaultNo) (episode : EpisodeId) (state : CaptureState) (preShort gap : Bool)
  | noFrameNotice (slot : SlotNo) (fault : FaultNo) (episode : EpisodeId)
  | clearEvent (fault : FaultNo)
  | managerRideEndEvent (qualifying : Bool)
  -- requests at their owners, and the work of CLOSING (spec 02, 06, 07, 09)
  | takeDefinitions
  | returnToConfig
  | startRide
  | endRide
  | poolSettled
  | closingComplete
  | clearFaults (argument : Word)
  | absReady
  -- Request Handler (spec 10)
  | requestPosted (port : Port)
  | requestReleased (port : Port)
  | waitingRequestTake (port : Port)
  | requestRestart (port : Port)
  -- Attention Unit (spec 10)
  | latchRequest (port : Port) (cause : Accounted Cause)
  | maskChange (port : Port) (which : MaskWord) (value : Word)
  | acknowledgement (port : Port) (value : Word)
  | attentionRestart (port : Port)
  -- clock and lamps (spec 07, 09)
  | rideClockTick
  | bulbCheckExpiry
  | flashTick
  | demandNotice (fault : FaultNo)
  | recordLampNotice (lamps : Accounted LampField)
  | modeNotice
  | bulbCheckExpiryNotice
  | absReadyChangeNotice
  | rideStartStep
  | overcurrentDetection (lamp : Lamp)
  -- Record Store and part reset (spec 07, 08)
  | dirtyMark (image : ImageId)
  | writeStart
  | writeCompletion
  | supplyLowChange (level : Bool)
  | resetHold
  | partReset
  | loadComplete
  | takeDefinitionsBuildDone
  | chipSelectRise (port : Port)
  deriving DecidableEq, Repr

end Sys2Proof
end

