-- ==== Sys2Proof/Machine/State.lean ====
section
/-! DEFINITION. The state of the KF740 as plain data, the reasons a step can stop, and the state after reset.
INVENTORY.md, "State", lists every field with the rule that names it. -/

namespace Sys2Proof.Machine

/-- The part has no fault: every command the manual gives has an effect, every SRR address of 14 bits reads and is
stored or dropped (R1, R5), and no rule stops the part. The type is closed and has no constructor. -/
inductive Fault
  deriving DecidableEq, Repr

/-- Why a command is refused. -/
inductive Refusal
  /-- Raised by `exec` alone, for a command that has no meaning in the model. No arm raises it. Safe. -/
  | notModelled (mnemonic : String)
  deriving DecidableEq, Repr

/-- SRR words and image words: (address, word) pairs with strictly rising addresses and no word of 0, which is what
an unlisted address reads as (R1: a part reset sets every word to 0x0000). -/
abbrev Mem := List (Nat × Word)

/-- Where a port stands in its transaction (R6). -/
inductive Link
  /-- Chip select high. -/
  | deselected
  /-- Chip select low and the transaction abandoned at a part reset: no command is taken until it has been high. -/
  | abandoned
  /-- In a READ burst, the next word at this address. -/
  | reading (next : Nat)
  /-- In a WRITE burst, the next word at this address. -/
  | writing (next : Nat)
  /-- In a STATUS transaction. -/
  | statusOut
  /-- Selected, with nothing further that a bit taken could do. -/
  | spent
  deriving DecidableEq, Repr

/-- A port interface: its transaction, its bad-command latch (R7), and the bytes it has driven on SDO in the
transaction in progress or last ended, oldest first. -/
structure PortIf where
  link       : Link
  badCommand : Bool
  sdo        : List Byte
  deriving DecidableEq, Repr

/-- The intake's state of one queue (R30). -/
structure Queue where
  takenTop    : Word
  bottom      : Word
  occupancy   : Nat
  capacity    : Nat
  almostEmpty : Bool
  almostFull  : Bool
  drain       : Nat
  /-- The queue has been reported drained for this END RIDE (R41). -/
  reported    : Bool
  deriving DecidableEq, Repr

/-- A ring tracker (R78). The stall timer is `none` while stopped. -/
structure Tracker where
  lastHead : Word
  held     : Nat
  state    : RingState
  timer    : Option Nat
  capacity : Nat
  deriving DecidableEq, Repr

/-- The definition part of a fault's entry (R50, R16). `ring` is `none` for a fault that takes no frame. -/
structure Definition where
  source   : Port
  lamp     : LampField
  pattern  : Pattern
  critical : Bool
  fixed    : Bool
  jump     : Bool
  ring     : Option Port
  priority : BitVec 4
  lampHeal : Nat
  gF       : Nat
  gP       : Nat
  confirm  : Nat
  healMag  : Nat
  pre      : BitVec 4
  post     : BitVec 4
  aging    : Nat
  deriving DecidableEq, Repr

/-- The six states of a defined fault (R50); a fault with no definition is UNDEFINED. -/
inductive Phase
  | untested
  | passing
  | passed
  | suspect
  | confirmed
  | recovering
  deriving DecidableEq, Repr

/-- An entry of the fault status table (R50): the definition part (`none` for an UNDEFINED fault) and the live part. -/
structure FaultEntry where
  defn          : Option Definition
  phase         : Phase
  acc           : Int
  tested        : Bool
  confirmedRide : Bool
  trigger       : Option Time
  episode       : Word
  capture       : Option BufNo
  captureLost   : Bool
  slot          : Option SlotNo
  unstored      : Bool
  deriving DecidableEq, Repr

/-- Who holds a buffer that is not free (R85). -/
inductive Holder
  | provisional
  | awaiting
  | record (s : SlotNo)
  deriving DecidableEq, Repr

/-- A held frame buffer (R85). Its window deadline is `episode.time + 200` while the capture is OPEN; its samples
stand in the SRR (R19). -/
structure Capture where
  holder     : Holder
  fault      : FaultNo
  priority   : BitVec 4
  ring       : Port
  episode    : EpisodeId
  state      : CaptureState
  preWanted  : Nat
  preGot     : Nat
  postWanted : Nat
  postGot    : Nat
  preShort   : Bool
  gap        : Bool
  deriving DecidableEq, Repr

/-- A record's state: ACTIVE or STORED (R117); a slot without a record is FREE. -/
inductive RecordState
  | active
  | stored
  deriving DecidableEq, Repr

/-- A record's frame status (R18). -/
inductive FrameStatus
  | none
  | capturing
  | complete
  | short
  | missed
  deriving DecidableEq, Repr

/-- A record of event memory (R105). -/
structure Record where
  state       : RecordState
  fault       : FaultNo
  priority    : BitVec 4
  lamp        : LampField
  pattern     : Pattern
  occurrence  : Nat
  age         : Nat
  lampLatch   : Bool
  clean       : Nat
  firstRide   : Word
  lastRide    : Word
  firstFail   : Time
  lastConfirm : Time
  frame       : Option BufNo
  frameStatus : FrameStatus
  preShort    : Bool
  gap         : Bool
  episodeFlag : Bool
  awaited     : Option EpisodeId
  deriving DecidableEq, Repr

/-- The part mode (R129). -/
inductive Mode
  | startUp
  | config
  | idle
  | ride
  | closing
  deriving DecidableEq, Repr

/-- The Ride Supervisor (R129, R134, R136, R137, R142, R143, R148, R149). -/
structure Supervisor where
  mode         : Mode
  rideClock    : Time
  rideNumber   : Word
  engineRun    : Nat
  previousE    : Option Time
  maxSpeed     : Word
  lastSpeed    : Word
  ringAStalled : Bool
  moving       : Bool
  /-- The bulb check's expiry while its timer runs. -/
  bulb         : Option Time
  absReady     : Bool
  /-- The queue-drained reports taken for this END RIDE. -/
  drained      : Both Bool
  /-- The qualifying judgement made in this CLOSING. -/
  qualified    : Bool
  /-- The two counts in hand for the END RIDE result. -/
  aged         : Option Nat
  suspects     : Option Nat
  deriving DecidableEq, Repr

/-- A lamp's demand, by rank (R169). -/
inductive Demand
  | off
  | slow
  | steady
  | fast
  deriving DecidableEq, Repr

/-- One lamp of the Lamp Driver (R169). -/
structure LampState where
  demand : Demand
  output : Bool
  short  : Bool
  deriving DecidableEq, Repr

/-- The Lamp Driver (R169). -/
structure LampDriver where
  engine : LampState
  abs    : LampState
  phase  : Nat
  deriving DecidableEq, Repr

/-- A CLEAR FAULTS that runs (R126, R127): the faults whose clear event the manager has not yet taken, the records
erased so far, and whether the argument names all faults. -/
structure ClearRun where
  remaining : List FaultNo
  erased    : Nat
  all       : Bool
  deriving DecidableEq, Repr

/-- A TAKE DEFINITIONS that runs: what its validation has found, the counts for its result (R24, R27) and the definition
of each valid entry, as read then (R20), for the build (R26), and the fault whose entry is built next. -/
structure TakeRun where
  valid         : Nat
  invalid       : Nat
  lowestInvalid : Option FaultNo
  found         : Vector (Option Definition) 128
  next          : Option FaultNo
  deriving DecidableEq, Repr

/-- An accepted START RIDE that runs: the parts of step 4 that have not yet ended, the Frame Capture Unit's and the Lamp
Driver's (R145). -/
structure StartRun where
  rings : Bool
  lamps : Bool
  deriving DecidableEq, Repr

/-- The Request Handler beyond the request blocks in the SRR (R188 to R193), and what the requests that take time
keep until they complete. -/
structure Handler where
  /-- An orphaned request of the port is running (R192, R193). -/
  orphan    : Both Bool
  /-- The FDT and mask words are locked (R5, R23). -/
  fdtLocked : Bool
  take      : Option TakeRun
  start     : Option StartRun
  clear     : Option ClearRun
  deriving DecidableEq, Repr

/-- The build that a TAKE DEFINITIONS has in progress: the fault whose entry comes next, and the run (R26). -/
def Handler.building (h : Handler) : Option (FaultNo × TakeRun) :=
  match h.take with
  | some r => r.next.map fun f => (f, r)
  | none => none

/-- The image write in flight: its image, the composed content, and the image's rewrite flag (R157, R158). -/
structure Writing where
  image   : ImageId
  content : Mem
  rewrite : Bool
  deriving DecidableEq, Repr

/-- The Record Store (R152 to R168). -/
structure Store where
  header    : Mem
  images    : Vector Mem 16
  dirty     : List ImageId
  writing   : Option Writing
  damaged   : Bool
  supplyLow : Bool
  deriving DecidableEq, Repr

/-- The whole part. -/
structure State where
  /-- Commands that are waiting, first in, first out (the model's own). -/
  pending  : List Instr
  /-- Events that a block has raised at another block and that have not been taken, oldest first (R12, R64). -/
  inFlight : List Instr
  /-- The SRR words stored by the last command, in the order they were stored (the model's own). -/
  stores   : List (Nat × Word)
  /-- Image writes cut off so far: the index of the free value `Config.tornWritten` (the model's own). -/
  tears    : Nat
  /-- The part is held in reset (R130). -/
  held     : Bool
  /-- The Shared Report RAM (R1). -/
  srr      : Mem
  ports    : Both PortIf
  queues   : Both Queue
  rings    : Both Tracker
  faults   : Vector FaultEntry 128
  pool     : Vector (Option Capture) 24
  slots    : Vector (Option Record) 16
  /-- The index list (R119). -/
  index    : List SlotNo
  sup      : Supervisor
  lamps    : LampDriver
  /-- The enable set of each port as the Attention Unit holds it: the one the last event that it has taken left (R180,
  R181). The word at offset 0x08 shows the port's store at once (R183). -/
  enables  : Both Word
  handler  : Handler
  store    : Store
  deriving DecidableEq, Repr

/-- A port whose chip select is high, as a part reset leaves it (R6, R7). -/
def PortIf.reset : PortIf := { link := .deselected, badCommand := false, sdo := [] }

/-- The values of R30. -/
def Queue.reset : Queue :=
  { takenTop := 0, bottom := 0, occupancy := 0, capacity := Config.resetCapacity, almostEmpty := true,
    almostFull := false, drain := 0, reported := false }

/-- The values of R78. -/
def Tracker.reset : Tracker :=
  { lastHead := 0, held := 0, state := .quiet, timer := none, capacity := Config.resetCapacity }

/-- The values of R50. -/
def FaultEntry.reset : FaultEntry :=
  { defn := none, phase := .untested, acc := 0, tested := false, confirmedRide := false, trigger := none,
    episode := 0, capture := none, captureLost := false, slot := none, unstored := false }

/-- The values of R129, R134, R137, R142 and R143; the ride number is 0 as delivered (R153). -/
def Supervisor.reset : Supervisor :=
  { mode := .startUp, rideClock := 0, rideNumber := 0, engineRun := 0, previousE := none, maxSpeed := 0,
    lastSpeed := 0, ringAStalled := false, moving := false, bulb := none, absReady := false,
    drained := { e := false, a := false }, qualified := false, aged := none, suspects := none }

/-- The values of R169: STEADY, output on, short latch clear. -/
def LampState.reset : LampState := { demand := .steady, output := true, short := false }

def LampDriver.reset : LampDriver := { engine := LampState.reset, abs := LampState.reset, phase := 0 }

/-- No request held, nothing locked (R187, R23). -/
def Handler.reset : Handler :=
  { orphan := { e := false, a := false }, fdtLocked := false, take := none, start := none, clear := none }

/-- The store as delivered (R153): 16 erased slot images and a header image with ride number 0, nothing dirty. -/
def Store.delivered : Store :=
  { header := [(0, Config.formatMark), (2, 0x5A53)], images := Vector.replicate 16 [(10, Config.imageSum)],
    dirty := [], writing := none, damaged := false, supplyLow := false }

/-- The part as a part reset of a delivered part leaves it (R131): START-UP, every block at its value after part
reset, the SRR zero, and the load, which found the delivered images, about to report complete (R161). -/
def State.reset : State :=
  { pending := [], inFlight := [.loadComplete], stores := [], tears := 0, held := false, srr := [],
    ports := { e := PortIf.reset, a := PortIf.reset }, queues := { e := Queue.reset, a := Queue.reset },
    rings := { e := Tracker.reset, a := Tracker.reset }, faults := Vector.replicate 128 FaultEntry.reset,
    pool := Vector.replicate 24 none, slots := Vector.replicate 16 none, index := [],
    sup := Supervisor.reset, lamps := LampDriver.reset, enables := { e := 0, a := 0 }, handler := Handler.reset,
    store := Store.delivered }

end Sys2Proof.Machine
end

