-- ==== Sys2Proof/Machine/Memory.lean ====
section
/-! DEFINITION. The Shared Report RAM and the images as memories of words: reading and writing one word, and the
canonical form every operation keeps (R1). Bit fields of words. -/

namespace Sys2Proof.Machine

/-- Reading a word: what was last written there, and 0x0000 where nothing is listed (R1). -/
def Mem.read (m : Mem) (a : Nat) : Word :=
  match m.find? (fun c => c.1 == a) with
  | some c => c.2
  | none => 0

/-- Writing a word. A word of 0 is not listed, so that equal memories are equal lists. -/
def Mem.write (m : Mem) (a : Nat) (v : Word) : Mem :=
  m.filter (fun c => decide (c.1 < a)) ++ ((if v = 0 then [] else [(a, v)]) ++ m.filter (fun c => decide (a < c.1)))

/-- The canonical form: addresses strictly rising, and no word of 0 listed. -/
def Mem.wf (m : Mem) : Bool :=
  decide (m.Pairwise (fun c d => c.1 < d.1)) && m.all (fun c => c.2 != 0)

/-- Every listed address lies below `n`. -/
def Mem.below (m : Mem) (n : Nat) : Bool := m.all (fun c => decide (c.1 < n))

/-- Writing several words, in order. -/
def Mem.writeAll (m : Mem) (ws : List (Nat × Word)) : Mem :=
  ws.foldl (fun m w => m.write w.1 w.2) m

/-- The sum of all words, modulo 65536 (R153). -/
def Mem.sum (m : Mem) : Word := (m.map (·.2)).sum

/-- The words from `a` on, `n` of them. -/
def Mem.readRange (m : Mem) (a n : Nat) : List Word := (List.range n).map fun i => m.read (a + i)

/-- Bits `lo` to `lo + n - 1` of a word, as a number. -/
def bits (w : Word) (lo n : Nat) : Nat := w.toNat / 2 ^ lo % 2 ^ n

/-- Bit `i` of a word. -/
def bit (w : Word) (i : Nat) : Bool := w.getLsbD i

/-- A flag as a number. -/
def flag (b : Bool) : Nat := if b then 1 else 0

/-- A word of the given fields, each a value and the place of its lowest bit. -/
def pack (fields : List (Nat × Nat)) : Word :=
  BitVec.ofNat 16 ((fields.map fun f => f.1 * 2 ^ f.2).sum)

/-- The low word and the high word of a 32-bit value; two words carry a quantity low word first (R2, R16 to R19). -/
def lowWord (t : BitVec 32) : Word := t.setWidth 16
def highWord (t : BitVec 32) : Word := (t >>> 16).setWidth 16

/-- The 32-bit value of a low word and a high word. -/
def twoWords (lo hi : Word) : BitVec 32 := hi ++ lo

/-- Ticks from `start` to `now`, modulo 2 to the 32. -/
def elapsed (now start : Time) : Nat := (now - start).toNat

end Sys2Proof.Machine
end

