-- ==== Sys2Proof/Machine/Operands.lean ====
section
/-! DEFINITION. Where things stand in the SRR and what they look like there: the map of spec 01, the codes of every
field, the words of every published view, and the reading of the formats the part takes in. -/

namespace Sys2Proof.Machine

/-! ### Addresses (R1 to R4, R15 to R19) -/

def aMode : Nat := 0x0002
def aClockLow : Nat := 0x0003
def aClockHigh : Nat := 0x0004
def aRideNumber : Nat := 0x0005
def aEngineRun : Nat := 0x0006
def aMaxSpeed : Nat := 0x0007
def aMoving : Nat := 0x0008
def aDirty : Nat := 0x0009
def aWriter : Nat := 0x000A
def aSupply : Nat := 0x000B
def aLamp : Lamp → Nat
  | .engine => 0x000C
  | .abs => 0x000D
def aAbsReady : Nat := 0x000E

/-- Port X's service area (R3). -/
def serviceBase : Port → Nat
  | .e => 0x0100
  | .a => 0x0140

def aRequest (p : Port) : Nat := serviceBase p
def aCode (p : Port) : Nat := serviceBase p + 0x01
def aArg0 (p : Port) : Nat := serviceBase p + 0x02
def aArg1 (p : Port) : Nat := serviceBase p + 0x03
def aStatus (p : Port) : Nat := serviceBase p + 0x04
def aResult (p : Port) (i : Nat) : Nat := serviceBase p + 0x05 + i
def aEnable (p : Port) : Nat := serviceBase p + 0x08
def aPolarity (p : Port) : Nat := serviceBase p + 0x09
def aOrder (p : Port) : Nat := serviceBase p + 0x0A
def aLatched (p : Port) : Nat := serviceBase p + 0x0B
def aAck (p : Port) : Nat := serviceBase p + 0x0C
def aTopCause (p : Port) : Nat := serviceBase p + 0x0D
def aRejectReason (p : Port) : Nat := serviceBase p + 0x0E
def aRejectFault (p : Port) : Nat := serviceBase p + 0x0F
def aRejectIndex (p : Port) : Nat := serviceBase p + 0x10

/-- Port X's queue and ring control words (R4). -/
def controlBase : Port → Nat
  | .e => 0x0180
  | .a => 0x0190

def aTop (p : Port) : Nat := controlBase p
def aBottom (p : Port) : Nat := controlBase p + 0x1
def aQueueMask (p : Port) : Nat := controlBase p + 0x2
def aEmptyLevel (p : Port) : Nat := controlBase p + 0x3
def aFullLevel (p : Port) : Nat := controlBase p + 0x4
def aOccupancy (p : Port) : Nat := controlBase p + 0x5
def aHead (p : Port) : Nat := controlBase p + 0x6
def aRingMask (p : Port) : Nat := controlBase p + 0x7
def aRingState (p : Port) : Nat := controlBase p + 0x8

def queueBase : Port → Nat
  | .e => 0x0800
  | .a => 0x1000

def ringBase : Port → Nat
  | .e => 0x1800
  | .a => 0x1A00

/-- Record k of queue X and sample k of ring X: the index masked with the mask in use (R4). -/
def recordAddress (p : Port) (capacity : Nat) (k : Word) : Nat := queueBase p + 4 * (k.toNat % capacity)
def sampleAddress (p : Port) (capacity : Nat) (k : Word) : Nat := ringBase p + 8 * (k.toNat % capacity)

def faultView (f : FaultNo) : Nat := 0x0200 + 4 * f.val
def fdtEntry (f : FaultNo) : Nat := 0x0400 + 8 * f.val
def recordView (s : SlotNo) : Nat := 0x1C00 + 32 * s.val
def indexView : Nat := 0x1E00
def bufferBase (b : BufNo) : Nat := 0x2800 + 248 * b.val
/-- Sample k of a buffer, counting from 0 across pre and post samples together (R19). -/
def placeAddress (b : BufNo) (k : Nat) : Nat := bufferBase b + 8 + 8 * k

/-- The 14-bit address of a 16-bit start address, the top two bits ignored (R8), and the next address, which wraps
from 0x3FFF to 0x0000. -/
def startAddress (w : Word) : Nat := w.toNat % Config.srrWords
def nextAddress (a : Nat) : Nat := (a + 1) % Config.srrWords

/-! ### Codes -/

/-- Mode code, word 0x0002 (R2). -/
def Mode.code : Mode → Nat
  | .startUp => 0
  | .config => 1
  | .idle => 2
  | .ride => 3
  | .closing => 4

/-- State field of the fault status view (R17); UNDEFINED is 0. -/
def FaultEntry.stateCode (e : FaultEntry) : Nat :=
  match e.defn, e.phase with
  | none, _ => 0
  | some _, .untested => 1
  | some _, .passing => 2
  | some _, .passed => 3
  | some _, .suspect => 4
  | some _, .confirmed => 5
  | some _, .recovering => 6

def ringStateCode : RingState → Nat
  | .quiet => 0
  | .live => 1
  | .stalled => 2

def lampCode : LampField → Nat
  | .none => 0
  | .engine => 1
  | .abs => 2
  | .both => 3

def lampOfCode (n : Nat) : LampField :=
  match n % 4 with
  | 0 => .none
  | 1 => .engine
  | 2 => .abs
  | _ => .both

def patternCode : Pattern → Nat
  | .steady => 0
  | .slow => 1

def patternOfCode (n : Nat) : Pattern := if n = 0 then .steady else .slow

def FrameStatus.code : FrameStatus → Nat
  | .none => 0
  | .capturing => 1
  | .complete => 2
  | .short => 3
  | .missed => 4

def frameStatusOfCode (n : Nat) : FrameStatus :=
  match n with
  | 1 => .capturing
  | 2 => .complete
  | 3 => .short
  | 4 => .missed
  | _ => .none

def Demand.code : Demand → Nat
  | .off => 0
  | .slow => 1
  | .steady => 2
  | .fast => 3

def RecordState.code : RecordState → Nat
  | .active => 1
  | .stored => 2

def portCode : Port → Nat
  | .e => 0
  | .a => 1

/-- Request states (R3). -/
def reqIdle : Word := 0
def reqPosted : Word := 1
def reqTaken : Word := 2
def reqDone : Word := 3
def reqRefused : Word := 4

/-- Result statuses (R3). -/
def accepted : Word := 0
def wrongMode : Word := 1
def badArgument : Word := 2
def notPermitted : Word := 3
def movingStatus : Word := 4

/-- A reference is published as its number plus one, and 0 stands for absent (R17). -/
def refCode {n : Nat} : Option (Fin n) → Nat
  | none => 0
  | some i => i.val + 1

/-! ### Published views -/

/-- Words 0, 1 and 2 of the fault status view and the two references of word 3 (R17). -/
def FaultEntry.stateWord (e : FaultEntry) : Word :=
  pack [(e.stateCode, 0), (flag e.tested, 4), (flag e.confirmedRide, 5), (flag e.captureLost, 6), (flag e.unstored, 7)]

def FaultEntry.accWord (e : FaultEntry) : BitVec 32 := BitVec.ofInt 32 e.acc

def FaultEntry.refs (e : FaultEntry) : Nat := refCode e.capture + 32 * refCode e.slot

/-- Word 3 of the fault status view: the references and the six-bit change counter (R17). -/
def refsWord (refs counter : Nat) : Word := pack [(refs % 1024, 0), (counter % 64, 10)]

/-- The published fields of an entry (R52): the state, the four flags, the accumulator and the two references. -/
structure FaultFields where
  state         : Nat
  tested        : Bool
  confirmedRide : Bool
  captureLost   : Bool
  unstored      : Bool
  acc           : Int
  capture       : Option BufNo
  slot          : Option SlotNo
  deriving DecidableEq, Repr

def FaultEntry.published (e : FaultEntry) : FaultFields :=
  { state := e.stateCode, tested := e.tested, confirmedRide := e.confirmedRide, captureLost := e.captureLost,
    unstored := e.unstored, acc := e.acc, capture := e.capture, slot := e.slot }

/-- Words 0 to 9 of a record view (R18); a FREE slot shows 0 in every field. -/
def recordWords : Option Record → List Word
  | none => List.replicate 10 0
  | some r =>
    [pack [(r.state.code, 0), (flag r.lampLatch, 2), (r.frameStatus.code, 4), (flag r.preShort, 7), (flag r.gap, 8)],
     pack [(r.fault.val, 0), (r.priority.toNat, 8), (lampCode r.lamp, 12), (patternCode r.pattern, 14)],
     pack [(r.occurrence % 256, 0), (r.age % 256, 8)],
     pack [(r.clean % 8, 0), (refCode r.frame, 8)],
     r.firstRide, r.lastRide, lowWord r.firstFail, highWord r.firstFail, lowWord r.lastConfirm, highWord r.lastConfirm]

/-- Owner kind of a frame header: 1 for a provisional or awaiting capture, 2 for a record (R19, R86). -/
def Holder.kind : Holder → Nat
  | .provisional => 1
  | .awaiting => 1
  | .record _ => 2

/-- Words 0 to 6 of a frame header (R19); a free buffer shows 0 in every field. -/
def headerWords : Option Capture → List Word
  | none => List.replicate 7 0
  | some c =>
    [pack [(c.fault.val, 0), (c.holder.kind, 8), (portCode c.ring, 10)],
     lowWord c.episode.time, highWord c.episode.time,
     pack [(c.preWanted % 16, 0), (c.preGot % 16, 4), (c.postWanted % 16, 8), (c.postGot % 16, 12)],
     pack [(flag (c.state != .opened), 0), (flag (c.state == .short), 1), (flag c.preShort, 2), (flag c.gap, 3)],
     0, 0]

/-- Words 2 to 31 of the index list after its count and counter: the slot numbers in order, then 0 (R18). -/
def indexWords (l : List SlotNo) : List Word :=
  (l.map fun s => BitVec.ofNat 16 s.val) ++ List.replicate (30 - l.length) 0

/-- A lamp word (R2, R169). -/
def LampState.word (l : LampState) : Word := pack [(l.demand.code, 0), (flag l.output, 2), (flag l.short, 3)]

/-- Word 0x000A: writer busy and store damaged (R2). -/
def Store.writerWord (t : Store) : Word := pack [(flag t.writing.isSome, 0), (flag t.damaged, 1)]

/-! ### Formats read by the part -/

/-- The outcome field of a report record (R15). -/
inductive ReportOutcome
  | fail
  | pass
  | untestable
  deriving DecidableEq, Repr

/-- A report record as read (R15): the outcome is `none` for the invalid code 0, and a repeat of 0 is taken as 1. -/
structure Report where
  fault     : Nat
  outcome   : Option ReportOutcome
  deviation : Word
  count     : Nat
  stamp     : Word
  deriving DecidableEq, Repr

def outcomeOfCode (n : Nat) : Option ReportOutcome :=
  match n with
  | 1 => some .fail
  | 2 => some .pass
  | 3 => some .untestable
  | _ => none

def readReport (m : Mem) (a : Nat) : Report :=
  let w0 := m.read a
  let n := bits (m.read (a + 2)) 0 8
  { fault := bits w0 0 8, outcome := outcomeOfCode (bits w0 8 2), deviation := m.read (a + 1),
    count := if n = 0 then 1 else n, stamp := m.read (a + 3) }

/-- The verdict of R24 on one FDT entry. -/
inductive Verdict
  | unused
  | invalid
  | valid (d : Definition)
  deriving DecidableEq, Repr

/-- The ring field: 0 none, 1 E, 2 A, 3 invalid (R16). -/
def ringOfCode (n : Nat) : Option Port :=
  match n with
  | 1 => some .e
  | 2 => some .a
  | _ => none

/-- Reading and validating the FDT entry of fault `f` (R16, R24). -/
def readDefinition (m : Mem) (f : FaultNo) : Verdict :=
  let a := fdtEntry f
  let w0 := m.read a
  let gF := (m.read (a + 1)).toNat
  let gP := (m.read (a + 2)).toNat
  let c := (twoWords (m.read (a + 3)) (m.read (a + 4))).toNat
  let h := (twoWords (m.read (a + 5)) (m.read (a + 6))).toNat
  let w7 := m.read (a + 7)
  let ring := bits w0 7 2
  let priority := bits w0 9 4
  let lampHeal := bits w0 13 3
  let pre := bits w7 0 4
  let post := bits w7 4 4
  let aging := bits w7 8 8
  if priority = 0 then .unused
  else if gF = 0 ∨ 32767 < gF ∨ gP = 0 ∨ 32767 < gP ∨ c = 0 ∨ 2000000 < c ∨ h = 0 ∨ 2000000 < h ∨ ring = 3
      ∨ lampHeal = 0 ∨ (ring = 0 ∧ (pre ≠ 0 ∨ post ≠ 0)) ∨ 250 < aging then .invalid
  else
    .valid
      { source := if bit w0 0 then .a else .e, lamp := lampOfCode (bits w0 1 2), pattern := patternOfCode (bits w0 3 1),
        critical := bit w0 4, fixed := bit w0 5, jump := bit w0 6, ring := ringOfCode ring,
        priority := BitVec.ofNat 4 priority, lampHeal := lampHeal, gF := gF, gP := gP, confirm := c, healMag := h,
        pre := BitVec.ofNat 4 pre, post := BitVec.ofNat 4 post, aging := aging }

/-- The mask a take writes back: a valid value is kept, any other gives the largest valid value not above it, and 15
below 15 (R25). -/
def queueMaskTaken (w : Nat) : Nat :=
  if 511 ≤ w then 511 else if 255 ≤ w then 255 else if 127 ≤ w then 127 else if 63 ≤ w then 63
  else if 31 ≤ w then 31 else 15

def ringMaskTaken (w : Nat) : Nat :=
  if 63 ≤ w then 63 else if 31 ≤ w then 31 else 15

/-- The full time of a stamp (R38): at most 255 ticks ahead of the clock counts as now, and a time that would be
negative as 0. -/
def fullTime (now : Time) (stamp : Word) : Time :=
  let lead := (stamp - lowWord now).toNat
  let lag := (lowWord now - stamp).toNat
  if 1 ≤ lead ∧ lead ≤ 255 then now
  else if lag ≤ now.toNat then now - BitVec.ofNat 32 lag
  else 0

/-- The window deadline of a capture: (T + 200) modulo 2 to the 32 (R85). -/
def Capture.deadline (c : Capture) : Time := c.episode.time + BitVec.ofNat 32 Config.windowTicks

/-- The lamps a lamp field names. -/
def lampHas : LampField → Lamp → Bool
  | .none, _ => false
  | .engine, .engine => true
  | .engine, .abs => false
  | .abs, .engine => false
  | .abs, .abs => true
  | .both, _ => true

/-- The field that names the lamps of either. -/
def lampUnion (x y : LampField) : LampField :=
  match x, y with
  | .none, y => y
  | x, .none => x
  | .engine, .engine => .engine
  | .abs, .abs => .abs
  | _, _ => .both

/-- A pattern as a demand (R170). -/
def patternDemand : Pattern → Demand
  | .steady => .steady
  | .slow => .slow

/-- The frame status of a record whose capture is in a state (R86). -/
def captureFrameStatus : CaptureState → FrameStatus
  | .opened => .capturing
  | .complete => .complete
  | .short => .short

end Sys2Proof.Machine
end

