-- ==== Sys2Proof/Machine/Flags.lean ====
section
/-! DEFINITION. The computations of flags and conditions: cause bits and the order of causes (R3, R182), the level
conditions and their edges (R42, R43), the port status byte (R6), the flash phase (R175), the moving and qualifying
judgements (R140, R141). -/

namespace Sys2Proof.Machine

/-- The bit of a cause in the enable, latched and acknowledge words; its code is one more (R3). -/
def causeBit : Cause → Nat
  | .overrun => 0
  | .access => 1
  | .reject => 2
  | .confirm => 3
  | .stall => 4
  | .lamp => 5
  | .reqdone => 6
  | .store => 7
  | .saved => 8
  | .qfull => 9
  | .qempty => 10

def causeMask (c : Cause) : Word := BitVec.ofNat 16 (2 ^ causeBit c)

def causeCode (c : Cause) : Nat := causeBit c + 1

/-- The bits of an enable set that name a cause of the port; the others are stored as 0 (R3). -/
def presentMask : Port → Word
  | .e => 0x07FF
  | .a => 0x06DF

/-- The polarity set's bits: QFULL, bit 9, and QEMPTY, bit 10 (R3). -/
def polarityMask : Word := 0x0600

/-- The two orders of causes (R182). -/
def faultsFirst : List Cause :=
  [.overrun, .access, .reject, .confirm, .stall, .lamp, .reqdone, .store, .saved, .qfull, .qempty]

def flowFirst : List Cause :=
  [.qfull, .qempty, .overrun, .reqdone, .saved, .reject, .access, .confirm, .stall, .lamp, .store]

/-- The top cause: the code of the first latched cause in the port's order, 0 when nothing is latched (R182). -/
def topCause (order latched : Word) : Word :=
  match (if bit order 0 then flowFirst else faultsFirst).find? (fun c => bit latched (causeBit c)) with
  | some c => BitVec.ofNat 16 (causeCode c)
  | none => 0

/-- A level above the capacity in use is taken as the capacity in use (R42). -/
def levelTaken (level : Word) (capacity : Nat) : Nat := min level.toNat capacity

/-- The almost-empty and the almost-full condition (R42). -/
def almostEmptyHolds (occupancy capacity : Nat) (level : Word) : Bool :=
  decide (occupancy ≤ levelTaken level capacity)

def almostFullHolds (occupancy capacity : Nat) (level : Word) : Bool :=
  decide (capacity - levelTaken level capacity ≤ occupancy)

/-- Whether a change of a level condition latches its cause: an entry under polarity 0, an exit under polarity 1
(R43). -/
def edgeLatches (last new polarity : Bool) : Bool :=
  (!last && new && !polarity) || (last && !new && polarity)

/-- The port status byte (R6). -/
def statusByte (mode : Mode) (line inHand supplyLow damaged badCommand : Bool) : Byte :=
  (pack [(mode.code, 0), (flag line, 3), (flag inHand, 4), (flag supplyLow, 5), (flag damaged, 6),
    (flag badCommand, 7)]).setWidth 8

/-- Whether a demand lights the output at a phase (R175, R176). -/
def demandLights (d : Demand) (phase : Nat) : Bool :=
  match d with
  | .off => false
  | .steady => true
  | .slow => decide (phase % 100 < 50)
  | .fast => decide (phase % 40 < 20)

/-- The higher of two demands (R170). -/
def Demand.higher (x y : Demand) : Demand := if x.code < y.code then y else x

/-- The moving flag in RIDE (R140). -/
def movingHolds (lastSpeed : Word) (ringAStalled : Bool) : Bool :=
  decide (Config.movingSpeed ≤ lastSpeed.toNat) || ringAStalled

/-- Whether a ride qualifies (R141). -/
def qualifies (engineRun : Nat) (maxSpeed : Word) : Bool :=
  decide (Config.qualifyingTicks ≤ engineRun) && decide (Config.qualifyingSpeed ≤ maxSpeed.toNat)

end Sys2Proof.Machine
end

