-- ==== Sys2Proof/Decode.lean ====
section
/-! DEFINITION. Decoding. spec/opcode_table.json gives no row any bits, so a word spells no command
(`decodeTableWord`). What the manual does encode is the SPI transaction: a command byte and the bytes after it
(R6 to R11); `decodeTransaction` reads the commands out of the bytes a port takes between the fall and the rise of its
chip select, and `encodeTransaction` writes those bytes. -/

namespace Sys2Proof

/-- The command that a word spells by the table's bits: the table gives no row any, so none. -/
def decodeTableWord (_nbits _w : Nat) : Option Instr := none

/-- The five port commands (R6). -/
inductive PortCommand
  | read
  | write
  | swap
  | status
  | restart
  deriving DecidableEq, Repr

/-- The command of a complete command byte; none of the five is a bad command (R6, R7). -/
def commandOf (b : Byte) : Option PortCommand :=
  if b = 0xA1 then some .read
  else if b = 0xA2 then some .write
  else if b = 0xA4 then some .swap
  else if b = 0xA8 then some .status
  else if b = 0xAF then some .restart
  else none

/-- A word on SPI travels most significant byte first (spec 00, "Words and addresses"). -/
def wordOfBytes (hi lo : Byte) : Word := hi ++ lo

def bytesOfWord (w : Word) : List Byte := [(w >>> 8).setWidth 8, w.setWidth 8]

/-- The complete words of a stream of bytes; a partial word at the end is discarded (R9). -/
def wordsOfBytes : List Byte → List Word
  | hi :: lo :: rest => wordOfBytes hi lo :: wordsOfBytes rest
  | _ => []

/-- The commands of a whole transaction of port `p`, from the fall of its chip select to its rise: `mosi` are the
complete bytes taken on SDI and `extraBits` the bits of an incomplete last byte (R6 to R11). Every transaction ends
with the rise of the chip select, which a RESTART contains (R11). -/
def decodeTransaction (p : Port) (mosi : List Byte) (extraBits : Nat) : List Instr :=
  match mosi with
  | [] => [.chipSelectRise p]
  | c :: rest =>
    match commandOf c with
    | none => [.badCommand p c rest.length, .chipSelectRise p]
    | some .status => [.status p true rest.length, .chipSelectRise p]
    | some .restart => [.restart p (8 * rest.length + extraBits)]
    | some .read =>
      match rest with
      | hi :: lo :: out =>
        [.read p (.opens (wordOfBytes hi lo)) ⟨out.length / 2, decide (out.length % 2 = 1)⟩, .chipSelectRise p]
      | cut => [.read p (.cut cut.length) ⟨0, false⟩, .chipSelectRise p]
    | some .write =>
      match rest with
      | hi :: lo :: data =>
        [.write p (.opens (wordOfBytes hi lo)) ⟨wordsOfBytes data, decide (data.length % 2 = 1)⟩, .chipSelectRise p]
      | cut => [.write p (.cut cut.length) ⟨[], false⟩, .chipSelectRise p]
    | some .swap =>
      match rest with
      | ah :: al :: ch :: cl :: nh :: nl :: out =>
        [.swap p (.whole (wordOfBytes ah al) (wordOfBytes ch cl) (wordOfBytes nh nl) out.length), .chipSelectRise p]
      | cut => [.swap p (.cut cut.length), .chipSelectRise p]

/-- The port whose SPI transaction a command is part of. -/
def Instr.ofPort : Instr → Option Port
  | .read p _ _ => some p
  | .write p _ _ => some p
  | .swap p _ => some p
  | .status p _ _ => some p
  | .restart p _ => some p
  | .badCommand p _ _ => some p
  | .chipSelectRise p => some p
  | _ => none

/-- The bytes and leftover bits that spell a port command, for each command that opens a transaction: those a
controller clocks out, with bytes of 0 where only the part's output matters. -/
def encodeTransaction : Instr → Option (List Byte × Nat)
  | .read _ (.opens a) ⟨n, half⟩ =>
    some (0xA1 :: bytesOfWord a ++ List.replicate (2 * n + if half then 1 else 0) 0, 0)
  | .read _ (.cut bytes) _ => some (0xA1 :: List.replicate bytes 0, 0)
  | .write _ (.opens a) ⟨ws, half⟩ =>
    some (0xA2 :: bytesOfWord a ++ ws.flatMap bytesOfWord ++ List.replicate (if half then 1 else 0) 0, 0)
  | .write _ (.cut bytes) _ => some (0xA2 :: List.replicate bytes 0, 0)
  | .swap _ (.cut bytes) => some (0xA4 :: List.replicate bytes 0, 0)
  | .swap _ (.whole a c n extra) =>
    some (0xA4 :: bytesOfWord a ++ bytesOfWord c ++ bytesOfWord n ++ List.replicate extra 0, 0)
  | .status _ true n => some (0xA8 :: List.replicate n 0, 0)
  | .restart _ k => some (0xAF :: List.replicate (k / 8) 0, k % 8)
  | .badCommand _ b n => some (b :: List.replicate n 0, 0)
  | _ => none

end Sys2Proof
end

