-- ==== Sys2Proof/WellFormed.lean ====
section
/-! DEFINITION. Which terms of `Instr` are commands the part can meet: the operand types rule out most ill-formed
terms, and these checks rule out the rest. -/

namespace Sys2Proof

/-- The causes present on a port: LAMP and SAVED are on Port E alone (R3). -/
def causePresent : Port → Cause → Bool
  | .a, .lamp => false
  | .a, .saved => false
  | _, _ => true

/-- A command is well formed when its operands are among those the rules give it.
A bad command's byte is none of the five command bytes (R7); a trigger and a confirm carry a priority of 1 to 15,
0 marking an unused entry (R16, R66, R67); a latch request names a cause present on its port (R3); a record lamp
notice names a lamp (R108). A transaction cut before its address, or its new word, is complete has fewer bytes than
that (R8 to R10), and it has no words. -/
def Instr.wellFormed : Instr → Bool
  | .read _ (.cut bytes) ⟨count, half⟩ => decide (bytes ≤ 1) && decide (count = 0) && !half
  | .read _ _ _ => true
  | .write _ (.cut bytes) ⟨words, half⟩ => decide (bytes ≤ 1) && decide (words = []) && !half
  | .write _ _ _ => true
  | .swap _ (.cut bytes) => decide (bytes ≤ 5)
  | .swap _ (.whole _ _ _ _) => true
  | .status _ _ _ => true
  | .restart _ _ => true
  | .badCommand _ b _ => (commandOf b).isNone
  | .topTaken _ _ => true
  | .levelReEvaluation _ _ => true
  | .recordTake _ => true
  | .queueDrained _ => true
  | .intakeRestart _ => true
  | .headWritten _ _ => true
  | .qualificationArrival _ _ _ => true
  | .ringStateReport _ _ => true
  | .stallTimerExpiry _ => true
  | .fcuModeNotice _ => true
  | .ringRestart _ => true
  | .trigger _ _ _ _ _ priority => decide (priority ≠ 0)
  | .deadlineExpiry _ => true
  | .confirmNotice _ _ => true
  | .episodeClose _ _ => true
  | .entryResetDiscard _ _ => true
  | .attachDirection _ _ _ => true
  | .discardDirection _ _ => true
  | .bufferFree _ _ => true
  | .captureUnitClear _ => true
  | .fcuRideEndEvent => true
  | .captureOpened _ _ _ => true
  | .captureLost _ _ => true
  | .captureReleased _ _ _ => true
  | .slotNotice _ _ _ => true
  | .qualifierClear _ => true
  | .suspectCount => true
  | .confirmEvent _ _ _ priority _ _ _ => decide (priority ≠ 0)
  | .heal _ => true
  | .frameChangeNotice _ _ _ _ _ _ _ => true
  | .noFrameNotice _ _ _ => true
  | .clearEvent _ => true
  | .managerRideEndEvent _ => true
  | .takeDefinitions => true
  | .returnToConfig => true
  | .startRide => true
  | .endRide => true
  | .poolSettled => true
  | .closingComplete => true
  | .clearFaults _ => true
  | .absReady => true
  | .requestPosted _ => true
  | .requestReleased _ => true
  | .waitingRequestTake _ => true
  | .requestRestart _ => true
  | .latchRequest p ⟨c, _⟩ => causePresent p c
  | .maskChange _ _ _ => true
  | .acknowledgement _ _ => true
  | .attentionRestart _ => true
  | .rideClockTick => true
  | .bulbCheckExpiry => true
  | .flashTick => true
  | .demandNotice _ => true
  | .recordLampNotice ⟨lamps, _⟩ => decide (lamps ≠ .none)
  | .modeNotice => true
  | .bulbCheckExpiryNotice => true
  | .absReadyChangeNotice => true
  | .rideStartStep => true
  | .overcurrentDetection _ => true
  | .dirtyMark _ => true
  | .writeStart => true
  | .writeCompletion => true
  | .supplyLowChange _ => true
  | .resetHold => true
  | .partReset => true
  | .loadComplete => true
  | .takeDefinitionsBuildDone => true
  | .chipSelectRise _ => true

end Sys2Proof
end

