-- ==== Sys2Proof/Machine/Ops.lean ====
section
/-! DEFINITION. The operations that the blocks share: taking a command, storing SRR words, raising events at other
blocks, setting one block's state, rewriting a published view under its change counter (R14), and completing a
request (R190). -/

namespace Sys2Proof.Machine

/-! ### One field at a time -/

def State.setPort (s : State) (p : Port) (x : PortIf) : State := { s with ports := s.ports.set p x }
def State.setQueue (s : State) (p : Port) (x : Queue) : State := { s with queues := s.queues.set p x }
def State.setRing (s : State) (p : Port) (x : Tracker) : State := { s with rings := s.rings.set p x }
def State.setFault (s : State) (f : FaultNo) (x : FaultEntry) : State := { s with faults := s.faults.set f x }
def State.setBuffer (s : State) (b : BufNo) (x : Option Capture) : State := { s with pool := s.pool.set b x }
def State.setSlots (s : State) (x : Vector (Option Record) 16) : State := { s with slots := x }
def State.setIndex (s : State) (x : List SlotNo) : State := { s with index := x }
def State.setSup (s : State) (x : Supervisor) : State := { s with sup := x }
def State.setLamps (s : State) (x : LampDriver) : State := { s with lamps := x }
def State.setEnables (s : State) (p : Port) (x : Word) : State := { s with enables := s.enables.set p x }
def State.setHandler (s : State) (x : Handler) : State := { s with handler := x }
def State.setStore (s : State) (x : Store) : State := { s with store := x }

/-! ### SRR words and events -/

/-- A block or a port stores one SRR word. The store is also noted in `stores`, so that the order of the stores
inside one command can be told (R2, R14, R36, R48, R190). -/
def State.put (s : State) (a : Nat) (v : Word) : State :=
  { s with srr := s.srr.write a v, stores := s.stores ++ [(a, v)] }

def State.putAll (s : State) (ws : List (Nat × Word)) : State := ws.foldl (fun s w => s.put w.1 w.2) s

/-- The words from address `a` on. -/
def wordsAt (a : Nat) : List Word → List (Nat × Word)
  | [] => []
  | w :: ws => (a, w) :: wordsAt (a + 1) ws

/-- An event is raised at another block: it is in flight until that block takes it (R12, R64). -/
def State.raise (s : State) (c : Instr) : State := { s with inFlight := s.inFlight ++ [c] }

def State.raiseAll (s : State) (cs : List Instr) : State := { s with inFlight := s.inFlight ++ cs }

/-- A cause is raised at the Attention Unit as a latch request (spec 10, "Where causes come from"), on no qualifier
event's account. -/
def State.latch (s : State) (p : Port) (c : Cause) : State := s.raise (.latchRequest p ⟨c, none⟩)

/-- Taking a command: it is no longer in flight, and the list of stores begins anew. -/
def State.begin (s : State) (c : Instr) : State := { s with inFlight := s.inFlight.erase c, stores := [] }

/-- A command of a block that acts whenever the part is not held in reset; a part held in reset takes no event
(R130). -/
def State.take (s : State) (c : Instr) (effect : State → State) : Host.Outcome State Fault Refusal :=
  .next (if s.held then s.begin c else effect (s.begin c))

/-- A command of a block that takes no event in START-UP either (R13, R30, R77, R131). -/
def State.takeUp (s : State) (c : Instr) (effect : State → State) : Host.Outcome State Fault Refusal :=
  .next (if s.held = true ∨ s.sup.mode = .startUp then s.begin c else effect (s.begin c))

/-! ### Rewriting a view (R14) -/

/-- A view with a whole-word counter: the counter made odd, the words, the counter made even (R14). Step 2 gives no order
among the words and does not say whether unchanged ones are stored: that every word is, in ascending address, is a DESIGN
CHOICE (notes/assumptions/28.md). -/
def State.rewrite (s : State) (counter : Nat) (ws : List (Nat × Word)) : State :=
  let s1 := (s.put counter (s.srr.read counter + 1)).putAll ws
  s1.put counter (s1.srr.read counter + 1)

/-- The fault status view of `f`, whose six-bit counter shares word 3 with the references (R17, R52). That the words between
the two counter stores are all stored, in ascending address, is a DESIGN CHOICE (notes/assumptions/28.md). -/
def State.publishFault (s : State) (f : FaultNo) : State :=
  let e := s.faults[f]
  let v := faultView f
  let old := s.srr.read (v + 3)
  let c := bits old 10 6
  let s1 := s.put (v + 3) (refsWord (bits old 0 10) (c + 1))
  let s2 := s1.putAll [(v, e.stateWord), (v + 1, lowWord e.accWord), (v + 2, highWord e.accWord),
    (v + 3, refsWord e.refs (c + 1))]
  s2.put (v + 3) (refsWord e.refs (c + 2))

/-- One event changes the entry of `f` to `e`, and rewrites its view once if a published field changed (R52). -/
def State.updateFault (s : State) (f : FaultNo) (e : FaultEntry) : State :=
  let s1 := s.setFault f e
  if (s.faults[f]).published = e.published then s1 else s1.publishFault f

/-- A record view (R18, R108). A slot that becomes FREE has every field of its view rewritten as 0, and its change counter
counts on, as R14 has it of every rewrite, although R105 has the view of a FREE slot read 0 in every word: that the counter is
not set to 0 is a DESIGN CHOICE (notes/assumptions/30.md). -/
def State.publishRecord (s : State) (i : SlotNo) : State :=
  s.rewrite (recordView i + 10) (wordsAt (recordView i) (recordWords s.slots[i]))

/-- The index list (R18, R119). -/
def State.publishIndex (s : State) : State :=
  s.rewrite (indexView + 1)
    ((indexView, BitVec.ofNat 16 s.index.length) :: wordsAt (indexView + 2) (indexWords s.index))

/-- A frame header (R19, R86). -/
def State.publishHeader (s : State) (b : BufNo) : State :=
  s.rewrite (bufferBase b + 7) (wordsAt (bufferBase b) (headerWords s.pool[b]))

/-! ### Mode, mirrors of the control area -/

/-- The supervisor stores the mode word, sends the Lamp Driver a mode notice, and tells the Frame Capture Unit when
RIDE is entered or left (R129). Every change releases the FDT and mask lock: it stands until the mode leaves CONFIG (R5,
R23), and the return to CONFIG finds it released (R28). -/
def State.changeMode (s : State) (m : Mode) : State :=
  let old := s.sup.mode
  let s1 := (s.setSup { s.sup with mode := m }).put aMode (BitVec.ofNat 16 m.code)
  let s2 := s1.setHandler { s1.handler with fdtLocked := false }
  let s3 := s2.raise .modeNotice
  if m = .ride ∧ old ≠ .ride then s3.raise (.fcuModeNotice .entered)
  else if old = .ride ∧ m ≠ .ride then s3.raise (.fcuModeNotice .left)
  else s3

/-! ### Request blocks (R187 to R193) -/

/-- The state word of port X's request block. -/
def State.request (s : State) (p : Port) : Word := s.srr.read (aRequest p)

/-- The request state is POSTED or TAKEN: the code and arguments are locked (R188), and the status byte says so. -/
def State.inHand (s : State) (p : Port) : Bool :=
  s.request p == reqPosted || s.request p == reqTaken

/-- Completion of port X's request (R190): the result, then the state word, then REQDONE. Step 1 names the status and the
three result words together: that they are stored in the order named is DEDUCED (notes/assumptions/28.md). The completion of an
orphaned request writes nothing, and a request that waited behind it is taken next (R193). -/
def State.complete (s : State) (p : Port) (status r0 r1 r2 : Word) : State :=
  if s.handler.orphan.get p then
    let s1 := s.setHandler { s.handler with orphan := s.handler.orphan.set p false }
    if s1.request p = reqPosted then s1.raise (.waitingRequestTake p) else s1
  else
    let s1 := s.putAll [(aStatus p, status), (aResult p 0, r0), (aResult p 1, r1), (aResult p 2, r2)]
    (s1.put (aRequest p) (if status = accepted then reqDone else reqRefused)).latch p .reqdone

/-- A refusal completes the request with the refusal's status and result words 0 (R189). -/
def State.refuse (s : State) (p : Port) (status : Word) : State := s.complete p status 0 0 0

/-- A block's part of step 4 of START RIDE has ended: `left` strikes it off the parts that have not. With the last of them
the supervisor's START_RIDE goes on to step 5 (R145). Without a START RIDE that runs, or with the part ended before, nothing
changes. -/
def State.partEnds (s : State) (left : StartRun → StartRun) : State :=
  match s.handler.start with
  | none => s
  | some r =>
    if left r = r then s
    else
      let s1 := s.setHandler { s.handler with start := some (left r) }
      if (left r).rings || (left r).lamps then s1 else s1.raise .startRide

/-! ### Pins -/

/-- The attention line of port X is asserted while its latched set is not empty (R182), and released while the part
is held in reset (R130). -/
def State.attentionLine (s : State) (p : Port) : Bool := !s.held && s.srr.read (aLatched p) != 0

/-- The port status byte as sampled now (R6). -/
def State.statusByte (s : State) (p : Port) : Byte :=
  Sys2Proof.Machine.statusByte s.sup.mode (s.attentionLine p) (s.inHand p) s.store.supplyLow s.store.damaged
    (s.ports.get p).badCommand

end Sys2Proof.Machine
end

