-- ==== Sys2Proof/Machine/Ports.lean ====
section
/-! DEFINITION. Port E and Port A (spec 01, sections 1.3 to 1.7): the rights of a store, write-watch events, and the
five port commands with their transactions. -/

namespace Sys2Proof.Machine

/-- The FDT and the mask words may be stored: CONFIG, and no TAKE DEFINITIONS taken (R5, R21). -/
def State.editable (s : State) : Bool := decide (s.sup.mode = .config) && !s.handler.fdtLocked

/-- The rights of port X over the word at `a` (R5); SWAP counts as a permitted way to store the request state word. -/
def State.mayStore (s : State) (p : Port) (a : Nat) (bySwap : Bool) : Bool :=
  if a = aRequest p then bySwap
  else if a = aCode p ∨ a = aArg0 p ∨ a = aArg1 p then !s.inHand p
  else if a = aEnable p ∨ a = aPolarity p ∨ a = aOrder p ∨ a = aAck p then true
  else if a = aTop p ∨ a = aEmptyLevel p ∨ a = aFullLevel p ∨ a = aHead p then true
  else if a = aQueueMask p ∨ a = aRingMask p then s.editable
  else if 0x0400 ≤ a ∧ a < 0x0800 then decide (p = .e) && s.editable
  else decide (queueBase p ≤ a ∧ a < queueBase p + 2048) || decide (ringBase p ≤ a ∧ a < ringBase p + 512)

/-- The value a store leaves: the enable and polarity sets keep only the bits of causes present (R3). -/
def storedValue (p : Port) (a : Nat) (v : Word) : Word :=
  if a = aEnable p then v &&& presentMask p
  else if a = aPolarity p then v &&& polarityMask
  else v

/-- The write-watch event of a store that takes effect (R12). -/
def watchEvent (p : Port) (a : Nat) (v : Word) : Option Instr :=
  if a = aTop p then some (.topTaken p v)
  else if a = aEmptyLevel p ∨ a = aFullLevel p then some (.levelReEvaluation p v)
  else if a = aHead p then some (.headWritten p v)
  else if a = aRequest p then some (if v = reqPosted then .requestPosted p else .requestReleased p)
  else if a = aEnable p then some (.maskChange p .enable v)
  else if a = aPolarity p then some (.maskChange p .polarity v)
  else if a = aAck p then some (.acknowledgement p v)
  else none

/-- A store the port has the right to make: the word changes (the acknowledge word has no storage, R3) and a watched
word raises its event, which carries the stored value (R12). -/
def State.portStore (s : State) (p : Port) (a : Nat) (v : Word) : State :=
  let w := storedValue p a v
  let s1 := if a = aAck p then s else s.put a w
  match watchEvent p a w with
  | some c => s1.raise c
  | none => s1

/-- One completed word of a WRITE: stored or dropped with ACCESS (R5, R9); in START-UP dropped without a cause (R13). -/
def State.writeWord (s : State) (p : Port) (a : Nat) (v : Word) : State :=
  if s.sup.mode = .startUp then s
  else if s.mayStore p a false then s.portStore p a v
  else s.latch p .access

/-- The words of a WRITE burst, each judged on its own (R9). -/
def State.writeBurst (s : State) (p : Port) (a : Nat) : List Word → State
  | [] => s
  | w :: ws => State.writeBurst (s.writeWord p a w) p (nextAddress a) ws

/-- The address after a burst of `n` words. -/
def addressAfter (a n : Nat) : Nat := (a + n) % Config.srrWords

/-- A word as a port reads it: zero throughout START-UP (R8, R13). -/
def State.portRead (s : State) (a : Nat) : Word := if s.sup.mode = .startUp then 0 else s.srr.read a

/-- The words of a READ burst as bytes, most significant byte first, and with a half word the high byte of one more word, which
deselection cuts off (R8). -/
def State.readBurst (s : State) (a : Nat) (n : Clocked Nat) : List Byte :=
  (List.range n.whole).flatMap (fun i => bytesOfWord (s.portRead (addressAfter a i)))
    ++ if n.half then (bytesOfWord (s.portRead (addressAfter a n.whole))).take 1 else []

/-- The posting rules, step 3 of a SWAP on the request state word (R187). -/
def postingAllowed (current new : Word) : Bool :=
  (new == reqPosted && (current == reqIdle || current == reqDone || current == reqRefused))
    || (new == reqIdle && (current == reqDone || current == reqRefused))

/-- The one indivisible access of a SWAP (R10): the state after it and the old word. -/
def State.swapAccess (s : State) (p : Port) (a : Nat) (compare new : Word) : State × Word :=
  if s.sup.mode = .startUp then (s, 0)
  else
    let old := s.srr.read a
    if !s.mayStore p a true then (s.latch p .access, old)
    else if old ≠ compare then (s, old)
    else if a = aRequest p ∧ postingAllowed old new = false then (s, old)
    else (s.portStore p a new, old)

/-- The bytes driven on SDO go on. -/
def State.drive (s : State) (p : Port) (bs : List Byte) : State :=
  s.setPort p { s.ports.get p with sdo := (s.ports.get p).sdo ++ bs }

/-- Bytes of 0x00, shifted out where the command gives no output (R6). -/
def zeros (n : Nat) : List Byte := List.replicate n 0

/-- The first byte of a word that deselection cuts off (R8, R9), as a count of bytes. -/
def halfByte (half : Bool) : Nat := if half then 1 else 0

def State.setLink (s : State) (p : Port) (l : Link) : State := s.setPort p { s.ports.get p with link := l }

def State.setBadCommand (s : State) (p : Port) (b : Bool) : State :=
  s.setPort p { s.ports.get p with badCommand := b }

/-- A transaction begins at the fall of chip select, which samples the status byte (R6), and `command` is what
follows its command byte. A port held in reset takes no bit, and a port that has abandoned its transaction takes no
command until it has seen its chip select high (R6, R130, R194). -/
def State.transact (s : State) (p : Port) (command : State → State) : State :=
  if s.held then s.setPort p { s.ports.get p with link := .abandoned, sdo := [] }
  else if (s.ports.get p).link = .abandoned then s
  else command (s.setPort p { s.ports.get p with sdo := [s.statusByte p] })

/-- A transaction whose command byte is valid: decoding it clears the bad-command latch (R7). -/
def State.command (s : State) (p : Port) (body : State → State) : State :=
  s.transact p fun s => body (s.setBadCommand p false)

/-- Where a burst stands after its words: at the next address, or, after a byte of a word cut off, at its end. -/
def burstLink (half : Bool) (going : Link) : Link := if half then .spent else going

/-- READ (R8): a burst opened, cut in its address bytes, or going on. -/
def execRead (p : Port) (burst : Burst) (n : Clocked Nat) (s : State) : Host.Outcome State Fault Refusal :=
  let s0 := s.begin (.read p burst n)
  .next <|
    match burst with
    | .opens w => s0.command p fun s =>
        (s.drive p (zeros 2 ++ s.readBurst (startAddress w) n)).setLink p
          (burstLink n.half (.reading (addressAfter (startAddress w) n.whole)))
    | .cut bytes => s0.command p fun s => (s.drive p (zeros bytes)).setLink p .spent
    | .continues =>
        match s0.held, (s0.ports.get p).link with
        | false, .reading a =>
            (s0.drive p (s0.readBurst a n)).setLink p (burstLink n.half (.reading (addressAfter a n.whole)))
        | _, _ => s0

/-- WRITE (R9): a burst opened, cut in its address bytes, or going on. SDO shifts out 0x00 throughout, in the byte of a
partial word too, which is discarded. -/
def execWrite (p : Port) (burst : Burst) (ws : Clocked (List Word)) (s : State) :
    Host.Outcome State Fault Refusal :=
  let s0 := s.begin (.write p burst ws)
  .next <|
    match burst with
    | .opens w => s0.command p fun s =>
        ((s.writeBurst p (startAddress w) ws.whole).drive p (zeros (2 + 2 * ws.whole.length + halfByte ws.half))).setLink p
          (burstLink ws.half (.writing (addressAfter (startAddress w) ws.whole.length)))
    | .cut bytes => s0.command p fun s => (s.drive p (zeros bytes)).setLink p .spent
    | .continues =>
        match s0.held, (s0.ports.get p).link with
        | false, .writing a =>
            ((s0.writeBurst p a ws.whole).drive p (zeros (2 * ws.whole.length + halfByte ws.half))).setLink p
              (burstLink ws.half (.writing (addressAfter a ws.whole.length)))
        | _, _ => s0

/-- SWAP (R10): the old word follows the new word on SDO, with 0x00 before and after it; cut before its new word is
complete, it shifts out 0x00 alone. -/
def execSwap (p : Port) (form : SwapForm) (s : State) : Host.Outcome State Fault Refusal :=
  let s0 := s.begin (.swap p form)
  .next <|
    match form with
    | .whole w c n extra => s0.command p fun s =>
        let r := s.swapAccess p (startAddress w) c n
        (r.1.drive p (zeros 6 ++ (bytesOfWord r.2 ++ zeros extra).take extra)).setLink p .spent
    | .cut bytes => s0.command p fun s => (s.drive p (zeros bytes)).setLink p .spent

/-- STATUS (R6): each byte after the command byte is a status byte sampled when that byte begins. -/
def execStatus (p : Port) (opens : Bool) (n : Nat) (s : State) : Host.Outcome State Fault Refusal :=
  let s0 := s.begin (.status p opens n)
  .next <|
    if opens then s0.command p fun s => (s.drive p (List.replicate n (s.statusByte p))).setLink p .statusOut
    else
      match s0.held, (s0.ports.get p).link with
      | false, .statusOut => s0.drive p (List.replicate n (s0.statusByte p))
      | _, _ => s0

/-- RESTART (R11): it acts when chip select rises with no bit after the command byte, outside START-UP (R13), and
then raises one restart event at each of the four blocks. Its transaction ends with that rise, which is all that a port
sees of it that has abandoned its transaction (R194). -/
def execRestart (p : Port) (extraBits : Nat) (s : State) : Host.Outcome State Fault Refusal :=
  let s0 := s.begin (.restart p extraBits)
  .next <|
    if s0.held then s0.setPort p { s0.ports.get p with link := .deselected, sdo := [] }
    else if (s0.ports.get p).link = .abandoned then s0.setLink p .deselected
    else s0.command p fun s =>
      let s1 := (s.drive p (zeros (extraBits / 8))).setLink p .deselected
      if extraBits = 0 ∧ s.sup.mode ≠ .startUp then
        s1.raiseAll [.intakeRestart p, .ringRestart p, .requestRestart p, .attentionRestart p]
      else s1

/-- BAD_COMMAND (R7): the latch is set and ACCESS latched if enabled, in START-UP only the former (R13); the port
ignores the rest and shifts out 0x00. -/
def execBadCommand (p : Port) (b : Byte) (extra : Nat) (s : State) : Host.Outcome State Fault Refusal :=
  let s0 := s.begin (.badCommand p b extra)
  .next <|
    s0.transact p fun s =>
      let s1 := ((s.drive p (zeros extra)).setBadCommand p true).setLink p .spent
      if s.sup.mode = .startUp then s1 else s1.latch p .access

/-- CHIP_SELECT_RISE (R6): the transaction ends, and a port that had abandoned its transaction may take commands
again. The level of the pin is seen while the part is held in reset too (R194). -/
def execChipSelectRise (p : Port) (s : State) : Host.Outcome State Fault Refusal :=
  .next ((s.begin (.chipSelectRise p)).setLink p .deselected)

end Sys2Proof.Machine
end

