-- ==== Sys2Proof/Machine/Requests.lean ====
section
/-! DEFINITION. The Request Handler (spec 10, sections 10.5 to 10.7): the take of a posted request and its dispatch,
release, the request that waited behind an orphan, restart. -/

namespace Sys2Proof.Machine

/-- A request code as the owner's command, for a code that the port may post (R3, R189). -/
def requestOwner (p : Port) (code arg0 : Word) : Option Instr :=
  match p with
  | .e =>
    if code = 1 then some .takeDefinitions
    else if code = 2 then some .returnToConfig
    else if code = 3 then some .startRide
    else if code = 4 then some .endRide
    else if code = 5 then some (.clearFaults arg0)
    else none
  | .a => if code = 6 then some .absReady else none

/-- The take of a posted request (R189): TAKEN, the code and arguments read, the code checked, and the request
refused or dispatched. As a TAKE DEFINITIONS is taken in CONFIG, the FDT and the mask words are locked (R5, R23). -/
def State.takeRequest (s : State) (p : Port) : State :=
  let s1 := s.put (aRequest p) reqTaken
  let code := s1.srr.read (aCode p)
  match requestOwner p code (s1.srr.read (aArg0 p)) with
  | some c =>
    let s2 :=
      if c = .takeDefinitions ∧ s1.sup.mode = .config then s1.setHandler { s1.handler with fdtLocked := true } else s1
    s2.raise c
  | none => s1.refuse p (if 1 ≤ code.toNat ∧ code.toNat ≤ 6 then notPermitted else badArgument)

/-- A port's POSTED request is taken, unless an orphaned request of the port still runs (R189, R193). -/
def State.takeIfPosted (s : State) (p : Port) : State :=
  if s.request p = reqPosted ∧ s.handler.orphan.get p = false then s.takeRequest p else s

/-- REQUEST_POSTED (R189): behind an orphan the request stays POSTED (R193). -/
def execRequestPosted (p : Port) (s : State) : Host.Outcome State Fault Refusal :=
  s.takeUp (.requestPosted p) fun s => s.takeIfPosted p

/-- REQUEST_RELEASED (R191): nothing changes beyond the IDLE that the SWAP stored. -/
def execRequestReleased (p : Port) (s : State) : Host.Outcome State Fault Refusal :=
  s.takeUp (.requestReleased p) fun s => s

/-- WAITING_REQUEST_TAKE (R193): the request that waited behind the orphan is taken. -/
def execWaitingRequestTake (p : Port) (s : State) : Host.Outcome State Fault Refusal :=
  s.takeUp (.waitingRequestTake p) fun s => s.takeIfPosted p

/-- REQUEST_RESTART (R192): IDLE is stored in every state but IDLE; a TAKEN request becomes orphaned. The table acts on the
state as it then stands, and its last sentence calls a post after the RESTART a new request: one made before this event is
taken is withdrawn with the rest, a DESIGN CHOICE (notes/assumptions/27.md). -/
def execRequestRestart (p : Port) (s : State) : Host.Outcome State Fault Refusal :=
  s.takeUp (.requestRestart p) fun s =>
    if s.request p = reqIdle then s
    else
      let s1 := s.put (aRequest p) reqIdle
      if s.request p = reqTaken then s1.setHandler { s1.handler with orphan := s1.handler.orphan.set p true } else s1

end Sys2Proof.Machine
end

