-- ==== Sys2Proof/Machine/Lamps.lean ====
section
/-! DEFINITION. The Lamp Driver (spec 09): contributions and demands, recomputes, the flash phase, overcurrent, and
the ride-start step. -/

namespace Sys2Proof.Machine

def LampDriver.get (l : LampDriver) : Lamp → LampState
  | .engine => l.engine
  | .abs => l.abs

def LampDriver.set (l : LampDriver) (k : Lamp) (x : LampState) : LampDriver :=
  match k with
  | .engine => { l with engine := x }
  | .abs => { l with abs := x }

/-! ### Contributions (R170 to R173) -/

/-- The mode, bulb-check and readiness contributions (R170, R173). -/
def Supervisor.contribution (v : Supervisor) (k : Lamp) : Demand :=
  if v.mode = .startUp ∨ v.mode = .config ∨ v.bulb.isSome = true ∨ (k = .abs ∧ v.mode = .ride ∧ v.absReady = false) then
    .steady
  else .off

/-- A fault's contribution, which stands in RIDE alone (R170, R171). -/
def FaultEntry.contribution (e : FaultEntry) (mode : Mode) (k : Lamp) : Demand :=
  match e.defn with
  | none => .off
  | some d =>
    if mode = .ride ∧ lampHas d.lamp k = true then
      match e.phase with
      | .suspect => if d.critical then .fast else .off
      | .confirmed => if d.critical then .fast else patternDemand d.pattern
      | .recovering => if d.critical then .fast else patternDemand d.pattern
      | _ => .off
    else .off

/-- A record's contribution, in every mode (R170, R172). -/
def recordContribution (o : Option Record) (k : Lamp) : Demand :=
  match o with
  | some r => if r.lampLatch = true ∧ lampHas r.lamp k = true then patternDemand r.pattern else .off
  | none => .off

/-- The demand of a lamp: the highest of the contributions that stand for it (R170). -/
def State.demandOf (s : State) (k : Lamp) : Demand :=
  let faults := (List.finRange 128).foldl
    (fun d f => d.higher ((s.faults[f]).contribution s.sup.mode k)) (s.sup.contribution k)
  (List.finRange 16).foldl (fun d i => d.higher (recordContribution s.slots[i] k)) faults

/-! ### The driver's state and its words (R169, R176) -/

/-- The output a lamp's demand, the phase and the short latch give (R176). -/
def LampState.lit (l : LampState) (phase : Nat) : Bool := !l.short && demandLights l.demand phase

/-- A lamp takes a new state; a change stores its word, but during START-UP (R132, R169). -/
def State.setLamp (s : State) (k : Lamp) (x : LampState) : State :=
  if s.lamps.get k = x then s
  else
    let s1 := s.setLamps (s.lamps.set k x)
    if s.sup.mode = .startUp then s1 else s1.put (aLamp k) x.word

/-- A recompute of one lamp's demand (R174): the demand already held changes nothing. -/
def State.recompute (s : State) (k : Lamp) : State :=
  let l := s.lamps.get k
  let d := s.demandOf k
  if d = l.demand then s
  else s.setLamp k { l with demand := d, output := LampState.lit { l with demand := d } s.lamps.phase }

/-- The lamps of a field recomputed. Where both words change, that of the engine lamp is stored first, here and in the two
events below that concern both lamps: R169 has each stored once and gives no order, a DESIGN CHOICE
(notes/assumptions/25.md). -/
def State.recomputeField (s : State) (f : LampField) : State :=
  let s1 := if lampHas f .engine then s.recompute .engine else s
  if lampHas f .abs then s1.recompute .abs else s1

/-- DEMAND_NOTICE (R69, R174): the lamps of the fault's definition; an UNDEFINED fault has none. -/
def execDemandNotice (f : FaultNo) (s : State) : Host.Outcome State Fault Refusal :=
  s.take (.demandNotice f) fun s =>
    match (s.faults[f]).defn with
    | some d => s.recomputeField d.lamp
    | none => s

/-- RECORD_LAMP_NOTICE (R108, R174): the lamps it names. -/
def execRecordLampNotice (lamps : Accounted LampField) (s : State) : Host.Outcome State Fault Refusal :=
  s.take (.recordLampNotice lamps) fun s => s.recomputeField lamps.what

/-- MODE_NOTICE (R129, R174): both lamps. -/
def execModeNotice (s : State) : Host.Outcome State Fault Refusal :=
  s.take .modeNotice fun s => s.recomputeField .both

/-- BULB_CHECK_EXPIRY_NOTICE (R142, R174): both lamps. -/
def execBulbCheckExpiryNotice (s : State) : Host.Outcome State Fault Refusal :=
  s.take .bulbCheckExpiryNotice fun s => s.recomputeField .both

/-- ABS_READY_CHANGE_NOTICE (R143, R174): the ABS lamp. -/
def execAbsReadyChangeNotice (s : State) : Host.Outcome State Fault Refusal :=
  s.take .absReadyChangeNotice fun s => s.recomputeField .abs

/-- FLASH_TICK (R175): the phase counts 0 to 199 and wraps, and both outputs are set from it, the engine lamp's
first (notes/assumptions/25.md). R175 has the phase equal the ride clock modulo 200 too until the first START RIDE, which
cannot hold across a wrap of the clock (2^32 modulo 200 is 96): that it counts on there is a DESIGN CHOICE
(notes/assumptions/36.md). -/
def execFlashTick (s : State) : Host.Outcome State Fault Refusal :=
  s.take .flashTick fun s =>
    let phase := (s.lamps.phase + 1) % 200
    let s1 := s.setLamps { s.lamps with phase := phase }
    let s2 := s1.setLamp .engine { s1.lamps.engine with output := s1.lamps.engine.lit phase }
    s2.setLamp .abs { s2.lamps.abs with output := s2.lamps.abs.lit phase }

/-- The state a lamp takes at the ride-start step (R179): short latch clear, demand recomputed, output from both at
phase 0. Where the demand found is the one already held and the latch was clear, R174 has a recompute change nothing and R176
names no cause to set the output, while R179 has each output come on as its demand and the phase give it: that the output is
set at phase 0 there too, and the word stored where it changes, is a DESIGN CHOICE (notes/assumptions/33.md). -/
def State.rideStartLamp (s : State) (k : Lamp) : State :=
  let l : LampState := { demand := s.demandOf k, output := false, short := false }
  s.setLamp k { l with output := l.lit 0 }

/-- RIDE_START_STEP (R145, R175, R179): the phase restarts, both short latches clear and both demands are recomputed.
It is the driver's part of step 4 of a START RIDE (R145). The engine lamp comes first (notes/assumptions/25.md). -/
def execRideStartStep (s : State) : Host.Outcome State Fault Refusal :=
  s.take .rideStartStep fun s =>
    let s1 := s.setLamps { s.lamps with phase := 0 }
    ((s1.rideStartLamp .engine).rideStartLamp .abs).partEnds fun r => { r with lamps := false }

/-- OVERCURRENT_DETECTION (R178): the short latch is set, the output off, LAMP latched on Port E, but for a short in
START-UP, which latches no LAMP; while the latch is set a detection changes nothing. -/
def execOvercurrentDetection (k : Lamp) (s : State) : Host.Outcome State Fault Refusal :=
  s.take (.overcurrentDetection k) fun s =>
    let l := s.lamps.get k
    if l.short then s
    else
      let s1 := s.setLamp k { l with output := false, short := true }
      if s.sup.mode = .startUp then s1 else s1.latch .e .lamp

end Sys2Proof.Machine
end

