-- ==== Sys2Proof/Machine/Manager.lean ====
section
/-! DEFINITION. The Event Memory Manager (spec 06): records and the index list, confirm and displacement, heal, frame
notices, the ride-end passes, and the clear events of CLEAR FAULTS. -/

namespace Sys2Proof.Machine

/-! ### Records and the index list -/

/-- The state of a record (R117): ACTIVE while its episode flag or its lamp latch is set. -/
def Record.computedState (r : Record) : RecordState :=
  if r.episodeFlag || r.lampLatch then .active else .stored

def Record.recomputed (r : Record) : Record := { r with state := r.computedState }

/-- The slot whose record carries fault `f` (R107). -/
def slotOf (slots : Vector (Option Record) 16) (f : FaultNo) : Option SlotNo :=
  (List.finRange 16).find? fun i => (slots[i].map fun r => decide (r.fault = f)).getD false

def freeSlot (slots : Vector (Option Record) 16) : Option SlotNo :=
  (List.finRange 16).find? fun i => slots[i].isNone

/-- Whether a record of slot `i` stands before one of slot `j` in the index list (R119): priority, last-confirm ride
number and last-confirm time, each highest first, then slot number, lowest first. -/
def standsBefore (r : Record) (i : SlotNo) (q : Record) (j : SlotNo) : Bool :=
  if r.priority ≠ q.priority then decide (q.priority < r.priority)
  else if r.lastRide ≠ q.lastRide then decide (q.lastRide < r.lastRide)
  else if r.lastConfirm ≠ q.lastConfirm then decide (q.lastConfirm < r.lastConfirm)
  else decide (i < j)

/-- The order of R119 on slots; a FREE slot stands behind every record. -/
def slotBefore (slots : Vector (Option Record) 16) (i j : SlotNo) : Bool :=
  match slots[i], slots[j] with
  | some r, some q => standsBefore r i q j
  | some _, none => true
  | none, _ => false

/-- A slot inserted at the place its order gives. -/
def insertSlot (slots : Vector (Option Record) 16) (i : SlotNo) : List SlotNo → List SlotNo
  | [] => [i]
  | j :: js => if slotBefore slots i j then i :: j :: js else j :: insertSlot slots i js

/-- The index list of the slots in use, in order (R119). -/
def indexOf (slots : Vector (Option Record) 16) : List SlotNo :=
  ((List.finRange 16).filter fun i => slots[i].isSome).foldr (insertSlot slots) []

/-! ### Handing changes on (R108) -/

/-- The lamps whose demand a change from `old` to `new` in one slot may change (R108, item 4). -/
def lampsConcerned (old new : Option Record) : LampField :=
  match old, new with
  | none, none => .none
  | some r, none => if r.lampLatch then r.lamp else .none
  | none, some r => if r.lampLatch then r.lamp else .none
  | some r, some q =>
    if r.fault = q.fault then
      if r.lampLatch = q.lampLatch ∧ r.lamp = q.lamp ∧ r.pattern = q.pattern then .none else lampUnion r.lamp q.lamp
    else lampUnion (if r.lampLatch then r.lamp else .none) (if q.lampLatch then q.lamp else .none)

/-- Items 1 and 2 of R108 for one slot: a changed view is rewritten once, and the slot marked dirty. -/
def State.handSlot (old : Vector (Option Record) 16) (s : State) (i : SlotNo) : State :=
  if recordWords old[i] = recordWords s.slots[i] then s else (s.publishRecord i).raise (.dirtyMark (.slot i))

/-- A record has joined or left event memory between `old` and `new`: some slot is FREE in one of them alone, or holds
records of two faults, as a displacement leaves it (R111, R113, R116). -/
def membersChanged (old new : Vector (Option Record) 16) : Bool :=
  (List.finRange 16).any fun i => decide (old[i].map (·.fault) ≠ new[i].map (·.fault))

/-- Item 3 of R108: an event that inserts or removes a slot, or changes the sequence of slot numbers, rewrites the list
once and latches STORE on both ports (R119). A displacement does so even where the new record stands at its victim's place
(R113; notes/assumptions/23.md). -/
def State.handIndex (account : Option FaultNo) (old : Vector (Option Record) 16) (s : State) : State :=
  let new := indexOf s.slots
  if new = s.index ∧ membersChanged old s.slots = false then s
  else ((s.setIndex new).publishIndex).raiseAll [.latchRequest .e ⟨.store, account⟩, .latchRequest .a ⟨.store, account⟩]

/-- Item 4 of R108 for one slot. -/
def State.handLamps (account : Option FaultNo) (old : Vector (Option Record) 16) (s : State) (i : SlotNo) : State :=
  let l := lampsConcerned old[i] s.slots[i]
  if l = .none then s else s.raise (.recordLampNotice ⟨l, account⟩)

/-- An event that has changed event memory from `old` hands its changes on (R108); `account` is the fault of the qualifier
event on whose account it did (R64). R108 orders the four items of one record: that an event which changes several rewrites
their views in ascending slot number, and all of them before the index list, is a DESIGN CHOICE
(notes/assumptions/28.md). -/
def State.handOn (s : State) (account : Option FaultNo) (old : Vector (Option Record) 16) : State :=
  let s1 := (List.finRange 16).foldl (State.handSlot old) s
  (List.finRange 16).foldl (State.handLamps account old) (s1.handIndex account old)

/-- The events of a record's removal from slot `i` (R116, items 1 and 2): the buffer free, where it holds a frame or
awaits a capture, and the slot notice that leaves the unstored flag as it stands. -/
def removalEvents (account : Option FaultNo) (i : SlotNo) (r : Record) : List Instr :=
  (if r.frame.isSome || r.awaited.isSome then [.bufferFree i ⟨r.frame, account⟩] else []) ++ [.slotNotice r.fault none none]

/-! ### Confirm (R109 to R114) -/

/-- The record that a confirm creates (R105); its awaited capture is the T of the attach direction, if one is sent. -/
def newRecord (f : FaultNo) (ep : EpisodeId) (time : Time) (priority : BitVec 4) (lamp : LampField)
    (pattern : Pattern) (ringNone : Bool) (ride : Word) : Record :=
  { state := .active, fault := f, priority := priority, lamp := lamp, pattern := pattern, occurrence := 1, age := 0,
    lampLatch := decide (lamp ≠ .none), clean := 0, firstRide := ride, lastRide := ride, firstFail := ep.time,
    lastConfirm := time, frame := none, frameStatus := .none, preShort := false, gap := false, episodeFlag := true,
    awaited := if ringNone then none else some ep }

/-- An existing record takes the confirming episode's capture (R110): no frame, status NONE or MISSED, and no answer
awaited. -/
def Record.wantsFrame (r : Record) : Bool :=
  r.frame.isNone && (decide (r.frameStatus = .none) || decide (r.frameStatus = .missed)) && r.awaited.isNone

/-- The record that a confirm updates (R109). -/
def Record.confirmed (r : Record) (ep : EpisodeId) (time : Time) (priority : BitVec 4) (lamp : LampField)
    (pattern : Pattern) (ringNone : Bool) (ride : Word) : Record :=
  Record.recomputed
    { r with
      occurrence := min 255 (r.occurrence + 1), lastRide := ride, lastConfirm := time, age := 0, clean := 0,
      priority := priority, lamp := lamp, pattern := pattern, lampLatch := r.lampLatch || decide (lamp ≠ .none),
      episodeFlag := true,
      awaited := if ringNone = false ∧ r.wantsFrame = true then some ep else r.awaited }

/-- The direction for the confirming episode's capture (R110). -/
def directionEvents (f : FaultNo) (ep : EpisodeId) (ringNone attach : Bool) (i : SlotNo) : List Instr :=
  if ringNone then [] else if attach then [.attachDirection f ep i] else [.discardDirection f ep]

/-- The victim of a confirm of priority `priority` in a full memory (R112): the last in the index list of the STORED
records of that priority or below, else of the ACTIVE records of strictly lower priority. -/
def victimSlot (slots : Vector (Option Record) 16) (index : List SlotNo) (priority : BitVec 4) : Option SlotNo :=
  let stored := index.filter fun i =>
    (slots[i].map fun r => decide (r.state = .stored) && decide (r.priority ≤ priority)).getD false
  let active := index.filter fun i =>
    (slots[i].map fun r => decide (r.state = .active) && decide (r.priority < priority)).getD false
  match stored.getLast? with
  | some i => some i
  | none => active.getLast?

/-- CONFIRM_EVENT (R109 to R114). -/
def execConfirmEvent (f : FaultNo) (ep : EpisodeId) (time : Time) (priority : BitVec 4) (lamp : LampField)
    (pattern : Pattern) (ringNone : Bool) (s : State) : Host.Outcome State Fault Refusal :=
  s.takeUp (.confirmEvent f ep time priority lamp pattern ringNone) fun s =>
    let old := s.slots
    let new := newRecord f ep time priority lamp pattern ringNone s.sup.rideNumber
    let stored (i : SlotNo) : List Instr := [.slotNotice f (some i) (some false)]
    match slotOf old f with
    | some i =>
      match old[i] with
      | some r =>
        let r' := r.confirmed ep time priority lamp pattern ringNone s.sup.rideNumber
        ((s.setSlots (old.set i (some r'))).raiseAll (directionEvents f ep ringNone r.wantsFrame i ++ stored i)).handOn
          (some f) old
      | none => s
    | none =>
      match freeSlot old with
      | some i =>
        ((s.setSlots (old.set i (some new))).raiseAll (directionEvents f ep ringNone true i ++ stored i)).handOn
          (some f) old
      | none =>
        match victimSlot old s.index priority with
        | some i =>
          match old[i] with
          | some r =>
            ((s.setSlots (old.set i (some new))).raiseAll
              (removalEvents (some f) i r ++ directionEvents f ep ringNone true i ++ stored i)).handOn (some f) old
          | none => s
        | none =>
          s.raiseAll ((if ringNone then [] else [.discardDirection f ep]) ++ [.slotNotice f none (some true)])

/-! ### Heal and frame notices (R115, R118) -/

/-- HEAL (R118): the episode flag of the fault's record is cleared and its state recomputed. -/
def execHeal (f : FaultNo) (s : State) : Host.Outcome State Fault Refusal :=
  s.takeUp (.heal f) fun s =>
    match slotOf s.slots f with
    | some i =>
      match s.slots[i] with
      | some r =>
        (s.setSlots (s.slots.set i (some (Record.recomputed { r with episodeFlag := false })))).handOn (some f) s.slots
      | none => s
    | none => s

/-- FRAME_CHANGE_NOTICE (R115, R86): a notice that belongs to the record sets its frame reference, status and flags,
and marks the slot dirty even where no published field changed; any other is dropped. -/
def execFrameChangeNotice (i : SlotNo) (b : BufNo) (f : FaultNo) (ep : EpisodeId) (st : CaptureState)
    (preShort gap : Bool) (s : State) : Host.Outcome State Fault Refusal :=
  s.takeUp (.frameChangeNotice i b f ep st preShort gap) fun s =>
    match s.slots[i] with
    | some r =>
      if r.fault = f ∧ (r.frame = some b ∨ r.awaited = some ep) then
        let r' := { r with frame := some b, frameStatus := captureFrameStatus st, preShort := preShort, gap := gap,
                           awaited := if r.awaited = some ep then none else r.awaited }
        let s1 := (s.setSlots (s.slots.set i (some r'))).handOn none s.slots
        if recordWords (some r) = recordWords (some r') then s1.raise (.dirtyMark (.slot i)) else s1
      else s
    | none => s

/-- NO_FRAME_NOTICE (R115, R98): the answer that there is no frame sets the status MISSED; any other is dropped. -/
def execNoFrameNotice (i : SlotNo) (f : FaultNo) (ep : EpisodeId) (s : State) : Host.Outcome State Fault Refusal :=
  s.takeUp (.noFrameNotice i f ep) fun s =>
    match s.slots[i] with
    | some r =>
      if r.fault = f ∧ r.awaited = some ep then
        (s.setSlots (s.slots.set i (some { r with frameStatus := .missed, awaited := none }))).handOn
          none s.slots
      else s
    | none => s

/-! ### The ride-end passes (R121 to R123) -/

/-- The lamp-heal step (R123). -/
def Record.lampHealStep (r : Record) (cycles : Nat) : Record :=
  if r.lampLatch then
    if cycles ≤ r.clean + 1 then { r with lampLatch := false, clean := 0 } else { r with clean := r.clean + 1 }
  else r

/-- The aging pass on one record (R122): `none` where aging erases it. A record whose fault is UNDEFINED is skipped. -/
def passRecord (e : FaultEntry) (r : Record) : Option Record :=
  match e.defn with
  | none => some r
  | some d =>
    if e.confirmedRide then some { r with age := 0, clean := 0 }
    else if e.tested then
      let age := min 250 (r.age + 1)
      if d.aging ≠ 0 ∧ d.aging ≤ age then none else some (Record.lampHealStep { r with age := age } d.lampHeal)
    else some r

/-- The pass over a slot, on a qualifying ride (R121, step 1). -/
def passSlot (faults : Vector FaultEntry 128) (qualifying : Bool) : Option Record → Option Record
  | none => none
  | some r => if qualifying then passRecord faults[r.fault] r else some r

/-- The events of the records that aging erases, in ascending slot number. -/
def agedEvents (old new : Vector (Option Record) 16) : List Instr :=
  (List.finRange 16).flatMap fun i =>
    match old[i], new[i] with
    | some r, none => removalEvents none i r
    | _, _ => []

/-- The records in use. -/
def recordCount (slots : Vector (Option Record) 16) : Nat :=
  ((List.finRange 16).filter fun i => slots[i].isSome).length

/-- Episode flags cleared and states recomputed (R121, step 2). -/
def Record.rideEnded (r : Record) : Record := Record.recomputed { r with episodeFlag := false }

/-- MANAGER_RIDE_END_EVENT (R121): the pass on a qualifying ride, the flags and states, the changes handed on, and the
number erased by aging reported to the supervisor, which completes CLOSING when it has both counts (R149). -/
def execManagerRideEndEvent (qualifying : Bool) (s : State) : Host.Outcome State Fault Refusal :=
  s.takeUp (.managerRideEndEvent qualifying) fun s =>
    let passed := s.slots.map (passSlot s.faults qualifying)
    let new := passed.map fun o => o.map Record.rideEnded
    let s1 := ((s.setSlots new).raiseAll (agedEvents s.slots passed)).handOn none s.slots
    let s2 := s1.setSup { s1.sup with aged := some (recordCount s.slots - recordCount passed) }
    if s2.sup.suspects.isSome then s2.raise .closingComplete else s2

/-! ### CLEAR FAULTS (R125 to R127) -/

/-- Argument 0 names one fault number or, as 0x00FF, all faults (R125). -/
def clearSubjects (argument : Word) : Option (List FaultNo) :=
  if argument = 0x00FF then some (List.finRange 128)
  else if h : argument.toNat < 128 then some [⟨argument.toNat, h⟩]
  else none

/-- CLEAR_FAULTS at its owner (R125, R126): the checks in their order, then the clear of every fault concerned. -/
def execClearFaults (argument : Word) (s : State) : Host.Outcome State Fault Refusal :=
  s.takeUp (.clearFaults argument) fun s =>
    if s.sup.mode ≠ .idle ∧ s.sup.mode ≠ .ride then s.refuse .e wrongMode
    else
      match clearSubjects argument with
      | none => s.refuse .e badArgument
      | some fs =>
        if s.sup.mode = .ride ∧ s.sup.moving = true then s.refuse .e movingStatus
        else
          (s.setHandler { s.handler with clear := some { remaining := fs, erased := 0, all := decide (argument = 0x00FF) } }).raiseAll
            (fs.map .qualifierClear)

/-- The store's part of a CLEAR of all faults (R127, R167): the damaged latch is cleared and its word stored. -/
def State.clearDamaged (s : State) : State :=
  if s.store.damaged then
    let t := { s.store with damaged := false }
    (s.setStore t).put aWriter t.writerWord
  else s

/-- A clear event counted, and after the last the request completed (R127). Where it was of all faults the damaged latch
is cleared just before the result: R127 and R167 have it cleared as part of the request and before the result, and that it
is in this last event is a DESIGN CHOICE (notes/assumptions/26.md). R127 gives the number erased the range 0 to 16, while
R128 has the records that confirms put into slots freed meanwhile erased and counted too, so that the count can pass 16: that
it is stored as counted, without a cap, is a DESIGN CHOICE (notes/assumptions/31.md). -/
def State.countClear (s : State) (f : FaultNo) (erased : Nat) : State :=
  match s.handler.clear with
  | none => s
  | some c =>
    let left := c.remaining.erase f
    let n := c.erased + erased
    if f ∉ c.remaining then s
    else if left = [] then
      let s1 := if c.all then s.clearDamaged else s
      (s1.setHandler { s1.handler with clear := none }).complete .e accepted (BitVec.ofNat 16 n) 0 0
    else s.setHandler { s.handler with clear := some { c with remaining := left, erased := n } }

/-- CLEAR_EVENT (R126, R127): the fault's record, if any, is erased and counted. -/
def execClearEvent (f : FaultNo) (s : State) : Host.Outcome State Fault Refusal :=
  s.takeUp (.clearEvent f) fun s =>
    match slotOf s.slots f with
    | some i =>
      match s.slots[i] with
      | some r =>
        (((s.setSlots (s.slots.set i none)).raiseAll (removalEvents (some f) i r)).handOn (some f) s.slots).countClear f 1
      | none => s.countClear f 0
    | none => s.countClear f 0

/-! ### Reconnection (R26) -/

/-- The reconnection of TAKE DEFINITIONS: every record's state is recomputed, and each defined fault that has a
record is told its slot. -/
def State.reconnect (s : State) : State :=
  let notices := (List.finRange 16).filterMap fun i =>
    match s.slots[i] with
    | some r => if (s.faults[r.fault]).defn.isSome then some (Instr.slotNotice r.fault (some i) (some false)) else none
    | none => none
  ((s.setSlots (s.slots.map fun o => o.map Record.recomputed)).raiseAll notices).handOn none s.slots

end Sys2Proof.Machine
end

