-- ==== Sys2Proof/Machine/RecordStore.lean ====
section
/-! DEFINITION. The Record Store (spec 08, sections 8.1 to 8.3): images composed and checked, the dirty set, the
writer and its choice, SUPPLY-LOW. -/

namespace Sys2Proof.Machine

/-! ### Images (R152 to R154) -/

/-- An image with its check word at `a`: the words then sum to 0xA55A (R153). -/
def withCheck (m : Mem) (a : Nat) : Mem := m.write a (Config.imageSum - m.sum)

/-- The image of a FREE slot (R152). -/
def erasedImage : Mem := [(10, Config.imageSum)]

/-- The header image of a ride number (R153). -/
def headerImage (ride : Word) : Mem := withCheck (Mem.writeAll [] [(0, Config.formatMark), (1, ride)]) 2

/-- A frame status for which a record image carries the record's frame buffer (R152). -/
def FrameStatus.framed : FrameStatus → Bool
  | .capturing => true
  | .complete => true
  | .short => true
  | _ => false

/-- Where the frame part of a record image begins, and its sample place `k` (R152, R19). -/
def framePart : Nat := 32
def imagePlace (k : Nat) : Nat := framePart + 8 + 8 * k

/-- The frame part: the header words but the change counter, and the sample places the counts cover (R152). -/
def State.frameWords (s : State) (b : BufNo) (c : Capture) : List (Nat × Word) :=
  wordsAt framePart (headerWords (some c))
    ++ (List.range (c.preGot + c.postGot)).flatMap fun k =>
      wordsAt (imagePlace k) (s.srr.readRange (placeAddress b k) 8)

/-- The record image of a record as it stands, the frame reference written as 0 (R152, R157). -/
def State.recordImage (s : State) (r : Record) : Mem :=
  let part := wordsAt 0 (recordWords (some { r with frame := none }))
  let frame : List (Nat × Word) :=
    match r.frame with
    | some b =>
      match s.pool[b] with
      | some c => if r.frameStatus.framed then s.frameWords b c else []
      | none => []
    | none => []
  withCheck (Mem.writeAll [] (part ++ frame)) 10

/-- The whole image, composed from the state that stands (R157). -/
def State.compose (s : State) : ImageId → Mem
  | .header => headerImage s.sup.rideNumber
  | .slot i =>
    match s.slots[i] with
    | some r => s.recordImage r
    | none => erasedImage

/-- The content the store holds for an image, and the store with another. -/
def Store.image (t : Store) : ImageId → Mem
  | .header => t.header
  | .slot i => t.images[i]

def Store.setImage (t : Store) (x : ImageId) (m : Mem) : Store :=
  match x with
  | .header => { t with header := m }
  | .slot i => { t with images := t.images.set i m }

/-- Words of an image (R152, R153). -/
def imageLength : ImageId → Nat
  | .header => 3
  | .slot _ => Config.slotImageWords

/-- A torn image: each word new where it had been written, old where not (R160). `n` numbers the tear. -/
def tornImage (n words : Nat) (old new : Mem) : Mem :=
  (List.range words).filterMap fun i =>
    let v := if Config.tornWritten n i then new.read i else old.read i
    if v = 0 then none else some (i, v)

/-! ### The dirty set and the writer (R155 to R159) -/

/-- An image joins the dirty set, in which it is at most once (R155). -/
def Store.marked (t : Store) (x : ImageId) : Store :=
  if x ∈ t.dirty then t else { t with dirty := t.dirty ++ [x] }

/-- The dirty count word is stored at each change of the set (R155). -/
def State.publishDirty (s : State) : State := s.put aDirty (BitVec.ofNat 16 s.store.dirty.length)

/-- The writer word is stored at each change of its bits (R167, R168). -/
def State.publishWriter (s : State) : State := s.put aWriter s.store.writerWord

/-- DIRTY_MARK (R155): the image in flight has its rewrite flag set; another joins the set, unless it is in it. -/
def execDirtyMark (x : ImageId) (s : State) : Host.Outcome State Fault Refusal :=
  s.takeUp (.dirtyMark x) fun s =>
    match s.store.writing with
    | some w =>
      if w.image = x then s.setStore { s.store with writing := some { w with rewrite := true } }
      else if x ∈ s.store.dirty then s
      else (s.setStore (s.store.marked x)).publishDirty
    | none => if x ∈ s.store.dirty then s else (s.setStore (s.store.marked x)).publishDirty

/-- The images in the order of the writer's choice (R156): the header, the slots whose records are ACTIVE and those
whose records are STORED, each in index-list order, and the FREE slots in ascending slot number. -/
def State.writeOrder (s : State) : List ImageId :=
  let holds (st : RecordState) (i : SlotNo) : Bool := (s.slots[i].map fun r => decide (r.state = st)).getD false
  .header :: ((s.index.filter (holds .active) ++ s.index.filter (holds .stored)
    ++ (List.finRange 16).filter fun i => s.slots[i].isNone).map .slot)

/-- The writer's choice (R156). -/
def State.writeChoice (s : State) : Option ImageId := s.writeOrder.find? fun x => decide (x ∈ s.store.dirty)

/-- WRITE_START (R156, R157): with the writer idle, SUPPLY-LOW low and the mode not START-UP, the first dirty image is
composed whole and its write begins; otherwise no write starts. -/
def execWriteStart (s : State) : Host.Outcome State Fault Refusal :=
  s.takeUp .writeStart fun s =>
    if s.store.writing.isSome = true ∨ s.store.supplyLow = true then s
    else
      match s.writeChoice with
      | some x =>
        (s.setStore { s.store with writing := some { image := x, content := s.compose x, rewrite := false } }).publishWriter
      | none => s

/-- The store after the write in flight completes (R158). -/
def Store.written (t : Store) (w : Writing) : Store :=
  { t.setImage w.image w.content with
    writing := none, dirty := if w.rewrite then t.dirty else t.dirty.filter fun x => decide (x ≠ w.image) }

/-- WRITE_COMPLETION (R158): the image holds the composed content and leaves the set unless it was marked again; SAVED
is latched when the set has become empty. -/
def execWriteCompletion (s : State) : Host.Outcome State Fault Refusal :=
  s.takeUp .writeCompletion fun s =>
    match s.store.writing with
    | some w =>
      let s1 := (s.setStore (s.store.written w)).publishWriter
      if w.rewrite then s1
      else
        let s2 := s1.publishDirty
        if s2.store.dirty = [] then s2.latch .e .saved else s2
    | none => s

/-- SUPPLY_LOW_CHANGE (R151, R159): the store takes the level of the input. Its word is stored at a change, but in
START-UP, which publishes it as it ends (R132). The level is a pin's, and it is followed while the part is held too,
with no word stored, a DESIGN CHOICE (notes/assumptions/15.md). -/
def execSupplyLowChange (level : Bool) (s : State) : Host.Outcome State Fault Refusal :=
  let s0 := s.begin (.supplyLowChange level)
  .next <|
    if s0.store.supplyLow = level then s0
    else
      let s1 := s0.setStore { s0.store with supplyLow := level }
      if s1.held = true ∨ s1.sup.mode = .startUp then s1 else s1.put aSupply (BitVec.ofNat 16 (flag level))

end Sys2Proof.Machine
end

