-- ==== Sys2Proof/Machine/Capture.lean ====
section
/-! DEFINITION. The Frame Capture Unit (spec 05): ring trackers and their states, the frame pool, the opening,
filling and closing of captures, takeover, and the ends of a capture. -/

namespace Sys2Proof.Machine

/-! ### Ring states (R83) -/

/-- A ring's state and stall timer. A change of state stores the ring state word and is reported to the
supervisor. -/
def State.setRingState (s : State) (p : Port) (st : RingState) (timer : Option Nat) : State :=
  let t := s.rings.get p
  let s1 := s.setRing p { t with state := st, timer := timer }
  if t.state = st then s1
  else (s1.put (aRingState p) (BitVec.ofNat 16 (ringStateCode st))).raise (.ringStateReport p st)

/-- An advance of ring X (R83): in RIDE the ring is LIVE with its timer at 0, outside RIDE its state and timer are kept.
For a QUIET ring the table says so; it has a dash for a LIVE or STALLED one, which an advance finds once the mode has left
RIDE and FCU_MODE_NOTICE has not been taken, and that nothing changes there is a DESIGN CHOICE
(notes/assumptions/24.md). -/
def State.advanceRing (s : State) (p : Port) : State :=
  if s.sup.mode = .ride then s.setRingState p .live (some 0) else s

/-- FCU_MODE_NOTICE (R83, R129): at the entry of RIDE both rings are LIVE and their timers at 0, which is this unit's
part of step 4 of a START RIDE (R145); when RIDE is left both are QUIET and their timers stopped. R83 gives no order between
the two rings: that ring E's word is stored first is a DESIGN CHOICE (notes/assumptions/28.md). -/
def execFcuModeNotice (edge : RideEdge) (s : State) : Host.Outcome State Fault Refusal :=
  s.takeUp (.fcuModeNotice edge) fun s =>
    match edge with
    | .entered =>
      ((s.setRingState .e .live (some 0)).setRingState .a .live (some 0)).partEnds fun r => { r with rings := false }
    | .left => (s.setRingState .e .quiet none).setRingState .a .quiet none

/-- STALL_TIMER_EXPIRY (R83): a LIVE ring whose timer has reached 50 is STALLED and STALL latched on its port; a timer
that an advance has restarted meanwhile has not expired. -/
def execStallTimerExpiry (p : Port) (s : State) : Host.Outcome State Fault Refusal :=
  s.takeUp (.stallTimerExpiry p) fun s =>
    let t := s.rings.get p
    if t.state = .live ∧ t.timer = some Config.stallTicks then (s.setRingState p .stalled none).latch p .stall
    else s

/-! ### Buffers (R85, R86) -/

/-- The frame change notice of a buffer that a record holds (R86). -/
def Capture.notice (b : BufNo) (c : Capture) : List Instr :=
  match c.holder with
  | .record i => [.frameChangeNotice i b c.fault c.episode c.state c.preShort c.gap]
  | _ => []

/-- A held buffer changes: its header is rewritten, and the manager told if a record holds it (R86). -/
def State.changeBuffer (s : State) (b : BufNo) (c : Capture) : State :=
  ((s.setBuffer b (some c)).publishHeader b).raiseAll (c.notice b)

/-- A buffer returns to the free pool, its header rewritten with every field 0 (R86). -/
def State.freeBuffer (s : State) (b : BufNo) : State := (s.setBuffer b none).publishHeader b

/-- In ascending buffer number, the held buffers that satisfy `which` are changed by `change`. R80 to R82 and R101 to R104
give no order among the buffers whose headers one event rewrites: the ascending one, which the stores show, is a DESIGN CHOICE
(notes/assumptions/28.md). -/
def State.forBuffers (s : State) (which : Capture → Bool) (change : State → BufNo → Capture → State) : State :=
  (List.finRange 24).foldl (fun s b =>
    match s.pool[b] with
    | some c => if which c then change s b c else s
    | none => s) s

/-- The first buffer, in ascending number, that satisfies `which`. -/
def State.findBuffer (s : State) (which : Option Capture → Bool) : Option BufNo :=
  (List.finRange 24).find? fun b => which s.pool[b]

/-- A capture by its holder, fault and episode: trigger time and episode number equal (R64). -/
def Capture.matches (c : Capture) (h : Holder) (f : FaultNo) (ep : EpisodeId) : Bool :=
  decide (c.holder = h) && decide (c.fault = f) && decide (c.episode = ep)

/-- The buffer of a provisional or awaiting capture of `f` in that episode. -/
def State.findCapture (s : State) (h : Holder) (f : FaultNo) (ep : EpisodeId) : Option BufNo :=
  s.findBuffer fun c => (c.map fun c => c.matches h f ep).getD false

/-! ### Samples (R78, R80, R90) -/

/-- A sample as the unit reads it: its reconstructed full time and its eight words. -/
structure Sample where
  time  : Time
  words : List Word
  deriving DecidableEq, Repr

/-- Sample `k` of ring X as it stands in the ring (R15, R78, R80). The spec has its eight words read separately, so that a
port's store between two of the reads gives a mixed sample; the model reads all eight at one point of the command, a DESIGN
CHOICE (notes/assumptions/2.md). A sample that the port has changed in part before the event is read mixed. -/
def State.readSample (s : State) (p : Port) (k : Word) : Sample :=
  let a := sampleAddress p (s.rings.get p).capacity k
  { time := fullTime s.sup.rideClock (s.srr.read a), words := s.srr.readRange a 8 }

/-- The samples present in ring X, oldest index first (R78). -/
def State.presentSamples (s : State) (p : Port) : List Sample :=
  let t := s.rings.get p
  (List.range t.held).map fun i => s.readSample p (t.lastHead - BitVec.ofNat 16 t.held + BitVec.ofNat 16 i)

/-- The last `n` of a list. -/
def lastOf {α : Type} (n : Nat) (l : List α) : List α := l.drop (l.length - n)

/-- Samples copied into consecutive places of a buffer, from place `k` on (R19). That the words of one sample are stored in
ascending address is a DESIGN CHOICE (notes/assumptions/28.md). -/
def State.copySamples (s : State) (b : BufNo) (k : Nat) : List Sample → State
  | [] => s
  | x :: xs => State.copySamples (s.putAll (wordsAt (placeAddress b k) x.words)) b (k + 1) xs

/-! ### Opening (R87 to R92) -/

/-- What decides the state of a capture at its opening (R91): COMPLETE when no further post sample is wanted, SHORT
when the window has passed, else OPEN. -/
def openingState (postGot postWanted : Nat) (now : Time) (ep : EpisodeId) : CaptureState :=
  if postGot = postWanted then .complete
  else if Config.windowTicks ≤ elapsed now ep.time then .short
  else .opened

/-- A buffer is set up for a newcomer: pre samples, early post samples, one header rewrite, and the capture-opened
notice (R87, R90, R91, R92). At a takeover the victim's header stands, its counter even, until that rewrite, since R19 has the
samples copied before it and R88 has it made once: DEDUCED (notes/assumptions/28.md). -/
def State.openCapture (s : State) (b : BufNo) (f : FaultNo) (ep : EpisodeId) (ring : Port)
    (pre post priority : BitVec 4) : State :=
  let present := s.presentSamples ring
  let pres := lastOf pre.toNat (present.filter fun x => decide (x.time ≤ ep.time))
  let posts := (present.filter fun x => decide (ep.time < x.time)).take post.toNat
  let c : Capture :=
    { holder := .provisional, fault := f, priority := priority, ring := ring, episode := ep,
      state := openingState posts.length post.toNat s.sup.rideClock ep,
      preWanted := pre.toNat, preGot := pres.length, postWanted := post.toNat, postGot := posts.length,
      preShort := decide (pres.length < pre.toNat), gap := false }
  (((s.setBuffer b (some c)).copySamples b 0 (pres ++ posts)).publishHeader b).raise (.captureOpened f b ep)

/-- Whether a provisional capture ends before another at a takeover: lower priority, then earlier trigger time (R88). -/
def Capture.yields (c d : Capture) : Bool :=
  decide (c.priority < d.priority) || (decide (c.priority = d.priority) && decide (c.episode.time < d.episode.time))

/-- The victim of a newcomer's takeover (R88): among the provisional captures of strictly lower priority the one of
lowest priority, then earliest trigger time, then lowest buffer number. -/
def State.victim (s : State) (priority : BitVec 4) : Option BufNo :=
  ((List.finRange 24).foldl (fun (best : Option (BufNo × Capture)) b =>
    match s.pool[b] with
    | some c =>
      if c.holder = .provisional ∧ c.priority < priority then
        match best with
        | none => some (b, c)
        | some (b', c') => if c.yields c' then some (b, c) else some (b', c')
      else best
    | none => best) none).map Prod.fst

/-- TRIGGER (R87 to R92): a stale provisional capture of the fault is freed, then the lowest-numbered free buffer is
taken, else the victim's, whose notice names the buffer, else the capture is lost and the notice names none (R70). -/
def execTrigger (f : FaultNo) (ep : EpisodeId) (ring : Port) (pre post priority : BitVec 4) (s : State) :
    Host.Outcome State Fault Refusal :=
  s.takeUp (.trigger f ep ring pre post priority) fun s =>
    let s1 := s.forBuffers (fun c => decide (c.holder = .provisional) && decide (c.fault = f)) fun s b c =>
      (s.freeBuffer b).raise (.captureReleased f b c.episode)
    match s1.findBuffer Option.isNone with
    | some b => s1.openCapture b f ep ring pre post priority
    | none =>
      match s1.victim priority with
      | some b =>
        match s1.pool[b] with
        | some c => (s1.raise (.captureLost c.fault ⟨c.episode, some b⟩)).openCapture b f ep ring pre post priority
        | none => s1
      | none => s1.raise (.captureLost f ⟨ep, none⟩)

/-! ### Arrivals (R79 to R82, R93) -/

/-- A sample offered to an OPEN capture of its ring (R93): skipped at or before T, else appended, and the capture
closes COMPLETE with the last one wanted. -/
def State.offerSample (s : State) (x : Sample) (b : BufNo) (c : Capture) : State :=
  if x.time ≤ c.episode.time then s
  else
    let got := c.postGot + 1
    (s.copySamples b (c.preGot + c.postGot) [x]).changeBuffer b
      { c with postGot := got, state := if got = c.postWanted then .complete else .opened }

/-- The captures of ring X that are OPEN. -/
def Capture.openOn (p : Port) (c : Capture) : Bool := decide (c.state = .opened) && decide (c.ring = p)

/-- One arrived sample (R80): read, offered to the open captures in ascending buffer number, handed to the
supervisor. -/
def State.arrive (s : State) (p : Port) (k : Word) : State :=
  let x := s.readSample p k
  (s.forBuffers (Capture.openOn p) fun s b c => s.offerSample x b c).raise
    (.qualificationArrival p x.time (x.words.getD 1 0))

/-- Samples `first` on, `n` of them, arrive in index order. -/
def State.arriveAll (s : State) (p : Port) (first : Word) (n : Nat) : State :=
  (List.range n).foldl (fun s i => s.arrive p (first + BitVec.ofNat 16 i)) s

/-- GAP on every open capture of ring X, each header rewritten (R81, R82). -/
def State.markGap (s : State) (p : Port) : State :=
  s.forBuffers (Capture.openOn p) fun s b c => s.changeBuffer b { c with gap := true }

/-- HEAD_WRITTEN (R79): the four rows of the advance, then the ring state. R79 and R83 give no order between the samples and
headers of the captures and the ring state word within the event: that the word is stored last is a DESIGN CHOICE
(notes/assumptions/28.md). -/
def execHeadWritten (p : Port) (h : Word) (s : State) : Host.Outcome State Fault Refusal :=
  s.takeUp (.headWritten p h) fun s =>
    let t := s.rings.get p
    let advance := (h - t.lastHead).toNat
    if advance = 0 then s
    else
      let s1 :=
        if advance ≤ t.capacity then s.arriveAll p t.lastHead advance
        else if advance ≤ 32767 then (s.markGap p).arriveAll p (h - BitVec.ofNat 16 t.capacity) t.capacity
        else s.markGap p
      let held :=
        if advance ≤ t.capacity then min (t.held + advance) t.capacity
        else if advance ≤ 32767 then t.capacity
        else 0
      (s1.setRing p { t with lastHead := h, held := held }).advanceRing p

/-! ### Closing (R94, R95, R102, R104) -/

/-- DEADLINE_EXPIRY (R94): an OPEN capture whose window has passed closes SHORT; a capture closed, freed or replaced
before its deadline has no expiry. -/
def execDeadlineExpiry (b : BufNo) (s : State) : Host.Outcome State Fault Refusal :=
  s.takeUp (.deadlineExpiry b) fun s =>
    match s.pool[b] with
    | some c =>
      if c.state = .opened ∧ Config.windowTicks ≤ elapsed s.sup.rideClock c.episode.time then
        s.changeBuffer b { c with state := .short }
      else s
    | none => s

/-- FCU_RIDE_END_EVENT (R102): every OPEN capture closes SHORT, every provisional capture is freed with a
capture-released notice, and the pool is reported settled. -/
def execFcuRideEndEvent (s : State) : Host.Outcome State Fault Refusal :=
  s.takeUp .fcuRideEndEvent fun s =>
    let s1 := s.forBuffers (fun c => decide (c.state = .opened)) fun s b c => s.changeBuffer b { c with state := .short }
    let s2 := s1.forBuffers (fun c => decide (c.holder = .provisional)) fun s b c =>
      (s.freeBuffer b).raise (.captureReleased c.fault b c.episode)
    s2.raise .poolSettled

/-- RING_RESTART (R104): head word, last head and held count 0, the ring QUIET, its open captures closed SHORT with
GAP. The head word is zeroed as it stands: one stored after the RESTART and before this event is lost from the word, while its
HEAD_WRITTEN, taken next, carries it to the tracker, a DESIGN CHOICE (notes/assumptions/29.md). -/
def execRingRestart (p : Port) (s : State) : Host.Outcome State Fault Refusal :=
  s.takeUp (.ringRestart p) fun s =>
    let t := s.rings.get p
    let s1 := (s.setRing p { t with lastHead := 0, held := 0, state := .quiet, timer := none }).putAll
      [(aHead p, 0), (aRingState p, 0)]
    let s2 := if t.state = .quiet then s1 else s1.raise (.ringStateReport p .quiet)
    s2.forBuffers (Capture.openOn p) fun s b c => s.changeBuffer b { c with state := .short, gap := true }

/-- The ring part of RETURN TO CONFIG (R28, R84): head word, last head and held count 0, the ring QUIET. A head stored and not
yet taken is zeroed in its word, a DESIGN CHOICE (notes/assumptions/29.md). -/
def State.resetRing (s : State) (p : Port) : State :=
  ((s.setRing p { s.rings.get p with lastHead := 0, held := 0 }).put (aHead p) 0).setRingState p .quiet none

/-- A ring's new capacity comes into force: its held count is 0 (R84). -/
def State.changeRingCapacity (s : State) (p : Port) (capacity : Nat) : State :=
  s.setRing p { s.rings.get p with capacity := capacity, held := 0 }

/-! ### Ownership (R96 to R101, R103) -/

/-- CONFIRM_NOTICE (R96): the provisional capture of the episode awaits direction; the header does not change. -/
def execConfirmNotice (f : FaultNo) (ep : EpisodeId) (s : State) : Host.Outcome State Fault Refusal :=
  s.takeUp (.confirmNotice f ep) fun s =>
    match s.findCapture .provisional f ep with
    | some b =>
      match s.pool[b] with
      | some c => s.setBuffer b (some { c with holder := .awaiting })
      | none => s
    | none => s

/-- EPISODE_CLOSE (R97): the provisional capture of the episode is freed. -/
def execEpisodeClose (f : FaultNo) (ep : EpisodeId) (s : State) : Host.Outcome State Fault Refusal :=
  s.takeUp (.episodeClose f ep) fun s =>
    match s.findCapture .provisional f ep with
    | some b => s.freeBuffer b
    | none => s

/-- ENTRY_RESET_DISCARD (R97): the named buffer is freed if a provisional capture of the fault still holds it. -/
def execEntryResetDiscard (f : FaultNo) (b : BufNo) (s : State) : Host.Outcome State Fault Refusal :=
  s.takeUp (.entryResetDiscard f b) fun s =>
    match s.pool[b] with
    | some c => if c.holder = .provisional ∧ c.fault = f then s.freeBuffer b else s
    | none => s

/-- ATTACH_DIRECTION (R98): the awaiting capture goes to the record in slot `i`, or the unit has no frame for it. -/
def execAttachDirection (f : FaultNo) (ep : EpisodeId) (i : SlotNo) (s : State) : Host.Outcome State Fault Refusal :=
  s.takeUp (.attachDirection f ep i) fun s =>
    match s.findCapture .awaiting f ep with
    | some b =>
      match s.pool[b] with
      | some c => s.changeBuffer b { c with holder := .record i }
      | none => s
    | none => s.raise (.noFrameNotice i f ep)

/-- DISCARD_DIRECTION (R99): the awaiting capture of the episode is freed. -/
def execDiscardDirection (f : FaultNo) (ep : EpisodeId) (s : State) : Host.Outcome State Fault Refusal :=
  s.takeUp (.discardDirection f ep) fun s =>
    match s.findCapture .awaiting f ep with
    | some b => s.freeBuffer b
    | none => s

/-- BUFFER_FREE (R100, R116): the buffer that the record of slot `i` holds is freed; where the direction names a
buffer, it is that one. -/
def execBufferFree (i : SlotNo) (b : Accounted (Option BufNo)) (s : State) : Host.Outcome State Fault Refusal :=
  s.takeUp (.bufferFree i b) fun s =>
    match b.what with
    | some b =>
      match s.pool[b] with
      | some c => if c.holder = .record i then s.freeBuffer b else s
      | none => s
    | none => s.forBuffers (fun c => decide (c.holder = .record i)) fun s b _ => s.freeBuffer b

/-- CAPTURE_UNIT_CLEAR (R101): any provisional or awaiting capture of the fault is freed, without a notice. -/
def execCaptureUnitClear (f : FaultNo) (s : State) : Host.Outcome State Fault Refusal :=
  s.takeUp (.captureUnitClear f) fun s =>
    s.forBuffers (fun c => decide (c.fault = f) && (decide (c.holder = .provisional) || decide (c.holder = .awaiting)))
      fun s b _ => s.freeBuffer b

/-- The frame pool's part of RETURN TO CONFIG (R103). -/
def State.releaseProvisional (s : State) : State :=
  s.forBuffers (fun c => decide (c.holder = .provisional)) fun s b c =>
    (s.freeBuffer b).raise (.captureReleased c.fault b c.episode)

end Sys2Proof.Machine
end

