-- ==== Sys2Proof/Machine/Attention.lean ====
section
/-! DEFINITION. The Attention Unit (spec 10, sections 10.1 to 10.4): latch requests, mask changes,
acknowledgements, restart. Its four sets and the top cause are published in the words of the port's service area (R180);
the enable set that it applies is the one that the last event it has taken left (R181). -/

namespace Sys2Proof.Machine

/-- The top cause word is stored if its value changed (R182, step 2). -/
def State.refreshTop (s : State) (p : Port) : State :=
  let t := topCause (s.srr.read (aOrder p)) (s.srr.read (aLatched p))
  if s.srr.read (aTopCause p) = t then s else s.put (aTopCause p) t

/-- A change of the latched set: the word, then the top cause; the line follows the set (R182). -/
def State.setLatched (s : State) (p : Port) (v : Word) : State :=
  if s.srr.read (aLatched p) = v then s else (s.put (aLatched p) v).refreshTop p

/-- The unit takes a latch request: an enabled cause joins the latched set, any other request is dropped. It finds the
enable set as the event before it left it, so a store whose mask change has not been taken does not count (R181, R185). -/
def State.latchNow (s : State) (p : Port) (c : Cause) : State :=
  if bit (s.enables.get p) (causeBit c) then s.setLatched p (s.srr.read (aLatched p) ||| causeMask c) else s

/-- LATCH_REQUEST (R181). -/
def execLatchRequest (p : Port) (c : Accounted Cause) (s : State) : Host.Outcome State Fault Refusal :=
  s.take (.latchRequest p c) fun s => s.latchNow p c.what

/-- The mask word whose store an event carries, if it is a mask change. -/
def maskStored : Instr → Option (Port × MaskWord)
  | .maskChange p which _ => some (p, which)
  | _ => none

def aMask (p : Port) : MaskWord → Nat
  | .enable => aEnable p
  | .polarity => aPolarity p

/-- The mask word as a mask change of value `v` leaves it. The store has put `v` there at once (R183), so that the word
differs only where a later store has changed it, whose own mask change is then in flight, or where the restart of the
port has, taken after the store (R186): then the unit stores the value that it takes. That the event's value counts, and
not the word as it stands, is a DESIGN CHOICE (notes/assumptions/22.md). -/
def State.showMask (s : State) (p : Port) (which : MaskWord) (v : Word) : State :=
  if s.srr.read (aMask p which) = v ∨ s.inFlight.any (fun c => decide (maskStored c = some (p, which))) = true then s
  else s.put (aMask p which) v

/-- MASK_CHANGE (R183): the set becomes the value that the event carries (R12); causes no longer enabled leave the latched
set; the top cause is computed either way. With two stores in flight the first event's value is applied first, whatever
the word shows by then: a DESIGN CHOICE (notes/assumptions/22.md). -/
def execMaskChange (p : Port) (which : MaskWord) (v : Word) (s : State) : Host.Outcome State Fault Refusal :=
  s.take (.maskChange p which v) fun s =>
    match which with
    | .enable =>
      let e := v &&& presentMask p
      (((s.setEnables p e).showMask p .enable e).setLatched p (s.srr.read (aLatched p) &&& e)).refreshTop p
    | .polarity => (s.showMask p .polarity (v &&& polarityMask)).refreshTop p

/-- ACKNOWLEDGEMENT (R184): every cause whose bit is 1 leaves the latched set. -/
def execAcknowledgement (p : Port) (v : Word) (s : State) : Host.Outcome State Fault Refusal :=
  s.take (.acknowledgement p v) fun s => s.setLatched p (s.srr.read (aLatched p) &&& ~~~v)

/-- ATTENTION_RESTART (R186): the four sets and the top cause word become 0, and the line is released. A store that the
port has made after its RESTART and before this event is zeroed with the rest; its mask change, taken next, brings an
enable or polarity set back, and an order select so stored is lost: a DESIGN CHOICE (notes/assumptions/22.md). -/
def execAttentionRestart (p : Port) (s : State) : Host.Outcome State Fault Refusal :=
  s.take (.attentionRestart p) fun s =>
    (s.setEnables p 0).putAll [(aEnable p, 0), (aPolarity p, 0), (aOrder p, 0), (aLatched p, 0), (aTopCause p, 0)]

end Sys2Proof.Machine
end

