-- ==== Sys2Proof/Machine/Qualifier.lean ====
section
/-! DEFINITION. The Fault Qualifier (spec 04): the step, the update and the state machine of a report, entry resets,
and the notices of the Frame Capture Unit and the Event Memory Manager. -/

namespace Sys2Proof.Machine

/-! ### The step and the update (R53 to R57) -/

/-- The magnitude m of a report (R53). -/
def magnitude (d : Definition) (deviation : Word) : Nat :=
  if d.fixed then 32768 else deviation.toInt.natAbs

/-- The step for a gain and a magnitude (R54): g × m / 32768 rounded to the nearest, a half up, and at least 1. -/
def stepOf (g m : Nat) : Nat :=
  let q := (g * m + 16384) / 32768
  if q = 0 then 1 else q

/-- The heal threshold H: the negative of the heal magnitude (R20). -/
def Definition.healAt (d : Definition) : Int := -(d.healMag : Int)

/-- The confirm threshold C. -/
def Definition.confirmAt (d : Definition) : Int := (d.confirm : Int)

/-- The jump (R56): a change of direction first returns the accumulator to 0. -/
def jumpFrom (d : Definition) (fails : Bool) (a : Int) : Int :=
  if d.jump = true ∧ (if fails then a < 0 else 0 < a) then 0 else a

/-- Clamping to [H, C] (R57). -/
def Definition.clamp (d : Definition) (a : Int) : Int :=
  if d.confirmAt < a then d.confirmAt else if a < d.healAt then d.healAt else a

/-- The accumulator after a FAIL or a PASS of `n` identical outcomes (R57). -/
def updatedAcc (d : Definition) (fails : Bool) (n : Nat) (deviation : Word) (a : Int) : Int :=
  let by' : Int := (n * stepOf (if fails then d.gF else d.gP) (magnitude d deviation) : Nat)
  d.clamp (if fails then jumpFrom d fails a + by' else jumpFrom d fails a - by')

/-- The accumulator stands at a threshold (R63). -/
def Definition.atThreshold (d : Definition) (a : Int) : Bool := decide (a = d.healAt ∨ a = d.confirmAt)

/-! ### The state machine (R59 to R69) -/

/-- The open episode of an entry. An entry with an open episode holds T; the time of one that holds none is never
used. -/
def FaultEntry.openEpisode (e : FaultEntry) : EpisodeId := { number := e.episode, time := e.trigger.getD 0 }

/-- The trigger event, raised only for a fault whose ring is E or A (R66). -/
def triggerEvents (f : FaultNo) (d : Definition) (ep : EpisodeId) : List Instr :=
  match d.ring with
  | some r => [.trigger f ep r d.pre d.post d.priority]
  | none => []

/-- The events of a confirm before its demand notice, in order (R67). -/
def confirmEvents (f : FaultNo) (d : Definition) (ep : EpisodeId) (time : Time) : List Instr :=
  (if d.ring.isSome then [.confirmNotice f ep] else [])
    ++ [.confirmEvent f ep time d.priority d.lamp d.pattern d.ring.isNone, .latchRequest d.source ⟨.confirm, some f⟩]

/-- The demand notice of a change of state, for a fault with a lamp (R69). -/
def demandEvents (f : FaultNo) (d : Definition) (old new : Phase) : List Instr :=
  if old ≠ new ∧ d.lamp ≠ .none then [.demandNotice f] else []

/-- A FAIL (R59, R61, R62, R63): the entry after it, and the events in the order of R64. -/
def applyFail (f : FaultNo) (d : Definition) (n : Nat) (deviation : Word) (time : Time) (e : FaultEntry) :
    FaultEntry × List Instr :=
  let a := updatedAcc d true n deviation e.acc
  let e1 := { e with acc := a, tested := e.tested || d.atThreshold a }
  match e.phase with
  | .suspect =>
    if a = d.confirmAt then
      ({ e1 with phase := .confirmed, confirmedRide := true, capture := none },
        confirmEvents f d e.openEpisode time ++ demandEvents f d .suspect .confirmed)
    else (e1, [])
  | .confirmed =>
    if a = d.confirmAt then (e1, [])
    else ({ e1 with phase := .recovering }, demandEvents f d .confirmed .recovering)
  | .recovering =>
    if a = d.confirmAt then ({ e1 with phase := .confirmed }, demandEvents f d .recovering .confirmed)
    else (e1, [])
  | old =>
    let ep : EpisodeId := { number := e.episode + 1, time := time }
    let e2 := { e1 with trigger := some time, episode := e.episode + 1, captureLost := false }
    if a = d.confirmAt then
      ({ e2 with phase := .confirmed, confirmedRide := true, capture := none },
        triggerEvents f d ep ++ confirmEvents f d ep time ++ demandEvents f d old .confirmed)
    else ({ e2 with phase := .suspect }, triggerEvents f d ep ++ demandEvents f d old .suspect)

/-- A PASS (R60 to R63, R68). An episode that closes leaves T and the capture reference absent (R68, R97). -/
def applyPass (f : FaultNo) (d : Definition) (n : Nat) (deviation : Word) (e : FaultEntry) :
    FaultEntry × List Instr :=
  let a := updatedAcc d false n deviation e.acc
  let e1 := { e with acc := a, tested := e.tested || d.atThreshold a }
  match e.phase with
  | .suspect =>
    if a = d.healAt then
      ({ e1 with phase := .passed, trigger := none, capture := none },
        (if d.ring.isSome then [.episodeClose f e.openEpisode] else []) ++ demandEvents f d .suspect .passed)
    else (e1, [])
  | .confirmed =>
    if a = d.healAt then
      ({ e1 with phase := .passed, trigger := none, capture := none }, .heal f :: demandEvents f d .confirmed .passed)
    else ({ e1 with phase := .recovering }, demandEvents f d .confirmed .recovering)
  | .recovering =>
    if a = d.healAt then
      ({ e1 with phase := .passed, trigger := none, capture := none }, .heal f :: demandEvents f d .recovering .passed)
    else (e1, [])
  | old =>
    let new := if a = d.healAt then Phase.passed else Phase.passing
    ({ e1 with phase := new }, demandEvents f d old new)

/-- A good report applied to an entry (R57, R58). -/
def applyReport (f : FaultNo) (d : Definition) (o : ReportOutcome) (n : Nat) (deviation : Word) (time : Time)
    (e : FaultEntry) : FaultEntry × List Instr :=
  match o with
  | .fail => applyFail f d n deviation time e
  | .pass => applyPass f d n deviation e
  | .untestable => (e, [])

/-- The application of a report within a take (R39): the entry, its view once (R52), then the events (R64). -/
def State.applyReport (s : State) (f : FaultNo) (d : Definition) (o : ReportOutcome) (n : Nat) (deviation : Word)
    (time : Time) : State :=
  let r := Sys2Proof.Machine.applyReport f d o n deviation time s.faults[f]
  (s.updateFault f r.1).raiseAll r.2

/-! ### Entry resets (R72 to R74) -/

/-- An entry reset to UNTESTED; the slot reference and the episode number are left as they stand (R72). -/
def FaultEntry.untested (e : FaultEntry) : FaultEntry :=
  { e with phase := .untested, acc := 0, tested := false, confirmedRide := false, trigger := none, capture := none,
           captureLost := false, unstored := false }

/-- An UNDEFINED entry (R28, R50); the episode number is changed by triggers alone. -/
def FaultEntry.undefined (e : FaultEntry) : FaultEntry :=
  { e.untested with defn := none, slot := none }

/-- The discard of the capture an entry reset finds referenced (R72). -/
def discardEvents (f : FaultNo) (e : FaultEntry) : List Instr :=
  match e.capture with
  | some b => [.entryResetDiscard f b]
  | none => []

/-- The reset of the entry of `f`, if it is defined, with the demand notice of R69. -/
def State.resetEntry (s : State) (f : FaultNo) : State :=
  let e := s.faults[f]
  match e.defn with
  | none => s
  | some d => (s.updateFault f e.untested).raiseAll (discardEvents f e ++ demandEvents f d e.phase .untested)

/-- QUALIFIER_CLEAR (R126, R74): a defined entry is reset with its slot reference absent and the clear of f raised at
the Frame Capture Unit; in both cases a clear event is raised at the manager. -/
def execQualifierClear (f : FaultNo) (s : State) : Host.Outcome State Fault Refusal :=
  s.takeUp (.qualifierClear f) fun s =>
    let e := s.faults[f]
    match e.defn with
    | none => s.raise (.clearEvent f)
    | some d =>
      (s.updateFault f { e.untested with slot := none }).raiseAll
        (discardEvents f e ++ [.captureUnitClear f] ++ demandEvents f d e.phase .untested ++ [.clearEvent f])

/-! ### Notices taken (R70, R71) -/

/-- The entry's open episode is the one named: trigger times and episode numbers are equal (R64). -/
def FaultEntry.inEpisode (e : FaultEntry) (ep : EpisodeId) : Bool :=
  decide (e.trigger = some ep.time) && decide (e.episode = ep.number)

/-- CAPTURE_OPENED (R70): a fault that is SUSPECT in that episode takes the reference. -/
def execCaptureOpened (f : FaultNo) (b : BufNo) (ep : EpisodeId) (s : State) : Host.Outcome State Fault Refusal :=
  s.takeUp (.captureOpened f b ep) fun s =>
    let e := s.faults[f]
    if e.defn.isSome = true ∧ e.phase = .suspect ∧ e.inEpisode ep = true then
      s.updateFault f { e with capture := some b }
    else s

/-- CAPTURE_LOST (R70): dropped when T differs or is absent. The buffer that the notice names decides nothing: a reference
that is set becomes absent, whichever buffer it names. -/
def execCaptureLost (f : FaultNo) (lost : LostCapture) (s : State) : Host.Outcome State Fault Refusal :=
  s.takeUp (.captureLost f lost) fun s =>
    let e := s.faults[f]
    if e.defn.isSome = true ∧ e.inEpisode lost.episode = true then
      s.updateFault f { e with captureLost := true, capture := none }
    else s

/-- CAPTURE_RELEASED (R70): a reference that names the buffer becomes absent. -/
def execCaptureReleased (f : FaultNo) (b : BufNo) (ep : EpisodeId) (s : State) : Host.Outcome State Fault Refusal :=
  s.takeUp (.captureReleased f b ep) fun s =>
    let e := s.faults[f]
    if e.capture = some b then s.updateFault f { e with capture := none } else s

/-- SLOT_NOTICE (R71): applied to a defined fault, dropped for an UNDEFINED one. The unstored flag is set or cleared,
or left as it stands where the record has left event memory (R116). -/
def execSlotNotice (f : FaultNo) (slot : Option SlotNo) (unstored : Option Bool) (s : State) :
    Host.Outcome State Fault Refusal :=
  s.takeUp (.slotNotice f slot unstored) fun s =>
    let e := s.faults[f]
    if e.defn.isSome = true then
      s.updateFault f { e with slot := slot, unstored := unstored.getD e.unstored }
    else s

/-- The faults that stand SUSPECT (R75). -/
def State.suspectFaults (s : State) : Nat :=
  ((List.finRange 128).filter fun f =>
    (s.faults[f]).defn.isSome && decide ((s.faults[f]).phase = .suspect)).length

/-- SUSPECT_COUNT (R75, R149): the count is handed to the supervisor, which completes CLOSING when it has both. -/
def execSuspectCount (s : State) : Host.Outcome State Fault Refusal :=
  s.takeUp .suspectCount fun s =>
    let s1 := s.setSup { s.sup with suspects := some s.suspectFaults }
    if s.sup.aged.isSome then s1.raise .closingComplete else s1

end Sys2Proof.Machine
end

