-- ==== Sys2Proof/Machine/Intake.lean ====
section
/-! DEFINITION. The Symptom Intake (spec 03): top-taken events and overrun, the takes of records, level conditions,
the drain mark, restart. -/

namespace Sys2Proof.Machine

/-! ### Level conditions (R42 to R44) -/

/-- One condition's cause, if the edge from its last value latches it (R43). -/
def edgeEvent (p : Port) (c : Cause) (last new polarity : Bool) : List Instr :=
  if edgeLatches last new polarity then [.latchRequest p ⟨c, none⟩] else []

/-- The two conditions of queue X as they stand (R42). -/
def State.emptyNow (s : State) (p : Port) : Bool :=
  almostEmptyHolds (s.queues.get p).occupancy (s.queues.get p).capacity (s.srr.read (aEmptyLevel p))

def State.fullNow (s : State) (p : Port) : Bool :=
  almostFullHolds (s.queues.get p).occupancy (s.queues.get p).capacity (s.srr.read (aFullLevel p))

/-- The conditions set from the values they have, no cause latched (R28, R30, R45). -/
def State.setLevels (s : State) (p : Port) : State :=
  s.setQueue p { s.queues.get p with almostEmpty := s.emptyNow p, almostFull := s.fullNow p }

/-- An evaluation of the level conditions of queue X (R43); polarity bit 10 is QEMPTY's and bit 9 QFULL's. -/
def State.evaluateLevels (s : State) (p : Port) : State :=
  let q := s.queues.get p
  let polarity := s.srr.read (aPolarity p)
  (s.setLevels p).raiseAll
    (edgeEvent p .qempty q.almostEmpty (s.emptyNow p) (bit polarity 10)
      ++ edgeEvent p .qfull q.almostFull (s.fullNow p) (bit polarity 9))

/-! ### The drain mark (R40, R41) -/

/-- In CLOSING, a queue whose drain count is 0 is reported drained, once for an END RIDE. -/
def State.reportDrained (s : State) (p : Port) : State :=
  let q := s.queues.get p
  if s.sup.mode = .closing ∧ q.drain = 0 ∧ q.reported = false then
    (s.setQueue p { q with reported := true }).raise (.queueDrained p)
  else s

/-- In CLOSING, the drain count falls by `n`, not below 0. -/
def State.drainBy (s : State) (p : Port) (n : Nat) : State :=
  if s.sup.mode = .closing then
    (s.setQueue p { s.queues.get p with drain := (s.queues.get p).drain - n }).reportDrained p
  else s

/-! ### Top-taken events (R32, R33) -/

/-- The repair of an overrun (R33): the bottom moves to the top less the capacity, the records between are
discarded, OVERRUN is latched, the levels are evaluated, and in CLOSING the drain count falls. -/
def State.repairOverrun (s : State) (p : Port) : State :=
  let q := s.queues.get p
  let bottom := q.takenTop - BitVec.ofNat 16 q.capacity
  let s1 := s.setQueue p { q with bottom := bottom, occupancy := q.capacity }
  let s2 := (s1.putAll [(aBottom p, bottom), (aOccupancy p, BitVec.ofNat 16 q.capacity)]).latch p .overrun
  (s2.evaluateLevels p).drainBy p (bottom - q.bottom).toNat

/-- A top `t` taken (R32). -/
def State.topTaken (s : State) (p : Port) (t : Word) : State :=
  let q := s.queues.get p
  let occupancy := (t - q.bottom).toNat
  let s1 := s.setQueue p { q with takenTop := t }
  if q.capacity < occupancy then s1.repairOverrun p
  else if occupancy = q.occupancy then s1
  else
    ((s1.setQueue p { q with takenTop := t, occupancy := occupancy }).put (aOccupancy p)
      (BitVec.ofNat 16 occupancy)).evaluateLevels p

/-- TOP_TAKEN (R32). -/
def execTopTaken (p : Port) (t : Word) (s : State) : Host.Outcome State Fault Refusal :=
  s.takeUp (.topTaken p t) fun s => s.topTaken p t

/-- LEVEL_RE_EVALUATION (R44). -/
def execLevelReEvaluation (p : Port) (v : Word) (s : State) : Host.Outcome State Fault Refusal :=
  s.takeUp (.levelReEvaluation p v) fun s => s.evaluateLevels p

/-! ### Taking a record (R34 to R41) -/

/-- The mode a take is validated with: within the drain mark the mode is taken as RIDE (R41). -/
def State.takesAsRide (s : State) (p : Port) : Bool :=
  decide (s.sup.mode = .ride) || (decide (s.sup.mode = .closing) && decide (0 < (s.queues.get p).drain))

/-- What the validation of R35 finds: a reject reason, or the good report's fault, definition and outcome. -/
inductive Validation
  | reject (reason : Nat)
  | good (f : FaultNo) (d : Definition) (o : ReportOutcome)
  deriving DecidableEq, Repr

/-- The conditions of R35, in their order. -/
def State.validate (s : State) (p : Port) (r : Report) : Validation :=
  match r.outcome with
  | none => .reject 1
  | some o =>
    if h : r.fault < 128 then
      match (s.faults[r.fault]).defn with
      | none => .reject 3
      | some d =>
        if d.source ≠ p then .reject 4
        else if s.takesAsRide p then .good ⟨r.fault, h⟩ d o
        else .reject 5
    else .reject 2

/-- A rejected record (R36): while REJECT is clear, the detail words are stored, the reason last, and REJECT is
latched if enabled; while it is latched, the detail keeps the reject it holds. -/
def State.rejectRecord (s : State) (p : Port) (reason fault : Nat) : State :=
  if bit (s.srr.read (aLatched p)) (causeBit .reject) then s
  else
    (s.putAll [(aRejectFault p, BitVec.ofNat 16 fault), (aRejectIndex p, (s.queues.get p).bottom),
      (aRejectReason p, BitVec.ofNat 16 reason)]).latchNow p .reject

/-- Steps 1 to 3 of a take: the record at the bottom is read, validated, and rejected or applied (R34). R15 has its four
words read separately, and the Note after R39 has a port's store between two of the reads give a mixed record; the model reads
all four at one point of the command, a DESIGN CHOICE (notes/assumptions/2.md). A record that the port has changed in part
before the take is read mixed. -/
def State.takeBottom (s : State) (p : Port) : State :=
  let q := s.queues.get p
  let r := readReport s.srr (recordAddress p q.capacity q.bottom)
  match s.validate p r with
  | .reject reason => s.rejectRecord p reason r.fault
  | .good f d o => s.applyReport f d o r.count r.deviation (fullTime s.sup.rideClock r.stamp)

/-- Steps 4 to 6 of a take: the bottom, then the occupancy, the levels, the drain count (R34). -/
def State.advanceBottom (s : State) (p : Port) : State :=
  let q := s.queues.get p
  let s1 := s.setQueue p { q with bottom := q.bottom + 1, occupancy := q.occupancy - 1 }
  let s2 := s1.putAll [(aBottom p, q.bottom + 1), (aOccupancy p, BitVec.ofNat 16 (q.occupancy - 1))]
  (s2.evaluateLevels p).drainBy p 1

/-- RECORD_TAKE (R34): with occupancy 0 there is no record to take. -/
def execRecordTake (p : Port) (s : State) : Host.Outcome State Fault Refusal :=
  s.takeUp (.recordTake p) fun s =>
    if (s.queues.get p).occupancy = 0 then s else (s.takeBottom p).advanceBottom p

/-! ### Restart, capacities, the requests' parts -/

/-- INTAKE_RESTART (R45): top, bottom and occupancy 0, the reject detail 0, the levels set without latching, and in
CLOSING the drain ended. The mask, the capacity in use and the level words are kept. The order of the three stores of the
detail is a DESIGN CHOICE (notes/assumptions/28.md). The top word is zeroed as it stands: a top stored after the RESTART and
before this event is lost from the word, against R48, while its TOP_TAKEN, taken next, carries it to the queue, a DESIGN
CHOICE (notes/assumptions/29.md). -/
def execIntakeRestart (p : Port) (s : State) : Host.Outcome State Fault Refusal :=
  s.takeUp (.intakeRestart p) fun s =>
    let s1 := s.setQueue p { s.queues.get p with takenTop := 0, bottom := 0, occupancy := 0 }
    let s2 := s1.putAll [(aTop p, 0), (aBottom p, 0), (aOccupancy p, 0), (aRejectReason p, 0), (aRejectFault p, 0),
      (aRejectIndex p, 0)]
    (s2.setLevels p).drainBy p (s.queues.get p).drain

/-- The queue part of RETURN TO CONFIG (R28): top, bottom and occupancy 0, levels set without latching. A top stored and not
yet taken is zeroed in its word, a DESIGN CHOICE (notes/assumptions/29.md). -/
def State.resetQueue (s : State) (p : Port) : State :=
  let s1 := s.setQueue p { s.queues.get p with takenTop := 0, bottom := 0, occupancy := 0 }
  (s1.putAll [(aTop p, 0), (aBottom p, 0), (aOccupancy p, 0)]).setLevels p

/-- A queue's new capacity comes into force (R25, R44): an overrun is repaired, then the levels are evaluated once. -/
def State.changeQueueCapacity (s : State) (p : Port) (capacity : Nat) : State :=
  let q := s.queues.get p
  let s1 := s.setQueue p { q with capacity := capacity }
  if capacity < q.occupancy then s1.repairOverrun p else s1.evaluateLevels p

/-- The drain start of END RIDE (R40): the drain count is the occupancy, and a queue with none is drained at once. -/
def State.startDrain (s : State) (p : Port) : State :=
  (s.setQueue p { s.queues.get p with drain := (s.queues.get p).occupancy, reported := false }).reportDrained p

/-- QUEUE_DRAINED (R148): the supervisor has both reports, in whichever order they come, and raises the ride-end
event at the Frame Capture Unit. -/
def execQueueDrained (p : Port) (s : State) : Host.Outcome State Fault Refusal :=
  s.takeUp (.queueDrained p) fun s =>
    let d := s.sup.drained.set p true
    let s1 := s.setSup { s.sup with drained := d }
    if s.sup.mode = .closing ∧ s.sup.drained.get p = false ∧ d.e = true ∧ d.a = true then s1.raise .fcuRideEndEvent
    else s1

end Sys2Proof.Machine
end

