-- ==== Sys2Proof/Machine/Supervisor.lean ====
section
/-! DEFINITION. The Ride Supervisor (spec 07) with TAKE DEFINITIONS (spec 02) and ABS READY (spec 09): the ride clock
and its timers, ride qualification, the requests it owns, and the work of CLOSING. -/

namespace Sys2Proof.Machine

/-! ### The ride clock (R134, R135) -/

/-- The stall timer of a ring at a tick: it counts in RIDE while the ring is LIVE, and raises its expiry at the 50th
tick (R78, R83). -/
def State.tickRing (s : State) (p : Port) : State :=
  let t := s.rings.get p
  match t.timer with
  | some n =>
    if s.sup.mode = .ride ∧ t.state = .live ∧ n < Config.stallTicks then
      let s1 := s.setRing p { t with timer := some (n + 1) }
      if n + 1 = Config.stallTicks then s1.raise (.stallTimerExpiry p) else s1
    else s
  | none => s

/-- The deadline expiries that fall due at a clock value: the OPEN captures whose window deadline it is (R94). -/
def State.deadlinesDue (s : State) (now : Time) : List Instr :=
  (List.finRange 24).filterMap fun b =>
    match s.pool[b] with
    | some c => if c.state = .opened ∧ c.deadline = now then some (.deadlineExpiry b) else none
    | none => none

/-- RIDE_CLOCK_TICK (R134): the clock counts and is stored low word first (R2); the stall timers count, and the
expiries that fall due and the flash tick are raised at the blocks that own them (R135, R175). -/
def execRideClockTick (s : State) : Host.Outcome State Fault Refusal :=
  s.take .rideClockTick fun s =>
    let now := s.sup.rideClock + 1
    let s1 := (s.setSup { s.sup with rideClock := now }).putAll [(aClockLow, lowWord now), (aClockHigh, highWord now)]
    let s2 := (s1.tickRing .e).tickRing .a
    (s2.raiseAll (s2.deadlinesDue now ++ (if s.sup.bulb = some now then [.bulbCheckExpiry] else []))).raise .flashTick

/-- BULB_CHECK_EXPIRY (R142): a running timer whose expiry the clock has reached stops, and the Lamp Driver is told. -/
def execBulbCheckExpiry (s : State) : Host.Outcome State Fault Refusal :=
  s.take .bulbCheckExpiry fun s =>
    match s.sup.bulb with
    | some x =>
      if Config.bulbTicks ≤ elapsed s.sup.rideClock (x - BitVec.ofNat 32 Config.bulbTicks) then
        (s.setSup { s.sup with bulb := none }).raise .bulbCheckExpiryNotice
      else s
    | none => s

/-! ### Ride qualification (R137 to R140) -/

/-- The moving flag recomputed and its word stored when it changes (R140). -/
def State.recomputeMoving (s : State) : State :=
  let m := movingHolds s.sup.lastSpeed s.sup.ringAStalled
  if s.sup.moving = m then s
  else (s.setSup { s.sup with moving := m }).put aMoving (BitVec.ofNat 16 (flag m))

/-- The credit of a ring E sample of time `t` (R138): the gap since the previous one, at most 50 ticks. -/
def gapCredit (previous : Option Time) (t : Time) : Nat :=
  match previous with
  | some u => if u < t then min (t - u).toNat Config.gapCap else 0
  | none => 0

/-- A ring E sample in RIDE (R138). -/
def State.engineSample (s : State) (t : Time) (ch0 : Word) : State :=
  let run :=
    if Config.runningRpm ≤ ch0.toNat then min 65535 (s.sup.engineRun + gapCredit s.sup.previousE t) else s.sup.engineRun
  let s1 := s.setSup { s.sup with engineRun := run, previousE := some t }
  if run = s.sup.engineRun then s1 else s1.put aEngineRun (BitVec.ofNat 16 run)

/-- A ring A sample in RIDE (R139). -/
def State.speedSample (s : State) (ch0 : Word) : State :=
  let top := if s.sup.maxSpeed < ch0 then ch0 else s.sup.maxSpeed
  let s1 := s.setSup { s.sup with lastSpeed := ch0, maxSpeed := top }
  let s2 := if top = s.sup.maxSpeed then s1 else s1.put aMaxSpeed top
  s2.recomputeMoving

/-- QUALIFICATION_ARRIVAL (R138, R139): outside RIDE an arrival changes nothing (R137). -/
def execQualificationArrival (ring : Port) (t : Time) (ch0 : Word) (s : State) : Host.Outcome State Fault Refusal :=
  s.takeUp (.qualificationArrival ring t ch0) fun s =>
    if s.sup.mode ≠ .ride then s
    else
      match ring with
      | .e => s.engineSample t ch0
      | .a => s.speedSample ch0

/-- RING_STATE_REPORT (R139): in RIDE, ring A's state sets ring A stalled; ring E's changes nothing. -/
def execRingStateReport (ring : Port) (st : RingState) (s : State) : Host.Outcome State Fault Refusal :=
  s.takeUp (.ringStateReport ring st) fun s =>
    if s.sup.mode = .ride ∧ ring = .a then
      (s.setSup { s.sup with ringAStalled := decide (st = .stalled) }).recomputeMoving
    else s

/-! ### TAKE DEFINITIONS (R23 to R27) -/

/-- The definition of a valid entry. -/
def Verdict.definition : Verdict → Option Definition
  | .valid d => some d
  | _ => none

/-- What the validation finds (R24): the counts of valid and of invalid entries, the lowest fault number of an invalid
entry, and the definitions of the valid ones. The build begins with fault 0. -/
def takeCounts (verdicts : FaultNo → Verdict) : TakeRun :=
  (List.finRange 128).foldl (fun r f =>
    match verdicts f with
    | .unused => r
    | .invalid => { r with invalid := r.invalid + 1, lowestInvalid := some (r.lowestInvalid.getD f) }
    | .valid _ => { r with valid := r.valid + 1 })
    { valid := 0, invalid := 0, lowestInvalid := none, found := Vector.ofFn fun f => (verdicts f).definition,
      next := some 0 }

/-- The entry that the build gives a fault (R26): UNTESTED with its definition for a valid entry, else UNDEFINED. -/
def builtEntry (found : Option Definition) (e : FaultEntry) : FaultEntry :=
  match found with
  | some d => { e.untested with defn := some d, slot := none }
  | none => e.undefined

/-- The build of one entry, its view and its demand notice (R26, R69). -/
def State.buildEntry (found : Option Definition) (s : State) (f : FaultNo) : State :=
  let e := s.faults[f]
  let e' := builtEntry found e
  let notice : List Instr :=
    match e'.defn with
    | some d => if e.stateCode ≠ e'.stateCode ∧ d.lamp ≠ .none then [.demandNotice f] else []
    | none => []
  (s.updateFault f e').raiseAll notice

/-- The mask words of a port checked and written back, and the capacities they fix brought into force (R4, R25). That the
queue's mask word is stored before the ring's, and both before the repair of an overrun, is a DESIGN CHOICE
(notes/assumptions/28.md). -/
def State.takeMasks (s : State) (p : Port) : State :=
  let q := queueMaskTaken (s.srr.read (aQueueMask p)).toNat
  let r := ringMaskTaken (s.srr.read (aRingMask p)).toNat
  let s1 := s.putAll [(aQueueMask p, BitVec.ofNat 16 q), (aRingMask p, BitVec.ofNat 16 r)]
  (s1.changeQueueCapacity p (q + 1)).changeRingCapacity p (r + 1)

/-- The dispatched request at its owner, in CONFIG (R23 to R25): the lock, the validation and the capacities, after which
the build goes on. R25 gives no order between the ports: that Port E's mask words, with the repair of its queue, come before
Port A's is a DESIGN CHOICE (notes/assumptions/28.md). -/
def State.startTake (s : State) : State :=
  let s1 := s.setHandler { s.handler with fdtLocked := true, take := some (takeCounts (readDefinition s.srr)) }
  ((s1.takeMasks .e).takeMasks .a).raise .takeDefinitions

/-- The build of one fault's entry (R26). The next fault follows, and after the last the reconnection and the report that
the build is done. -/
def State.buildNext (s : State) (f : FaultNo) (r : TakeRun) : State :=
  let s1 := s.buildEntry r.found[f] f
  if h : f.val + 1 < 128 then
    (s1.setHandler { s1.handler with take := some { r with next := some ⟨f.val + 1, h⟩ } }).raise .takeDefinitions
  else
    (s1.setHandler { s1.handler with take := some { r with next := none } }).reconnect.raise .takeDefinitionsBuildDone

/-- TAKE_DEFINITIONS at its owner (R23 to R26): the request as dispatched, which any mode but CONFIG refuses, and then the
build, one fault at a time, so that a take of a record between two of them meets the table half built (R37). -/
def execTakeDefinitions (s : State) : Host.Outcome State Fault Refusal :=
  s.takeUp .takeDefinitions fun s =>
    if s.sup.mode ≠ .config then s.refuse .e wrongMode
    else
      match s.handler.building with
      | some (f, r) => s.buildNext f r
      | none => s.startTake

/-- TAKE_DEFINITIONS_BUILD_DONE (R27): the mode becomes IDLE, which releases the lock and has the Lamp Driver
recompute, and the result is written. R27 has the handler write "then"; the result does not wait for the driver to have
taken its mode notice, since the completion belongs to this event (DEDUCED, notes/assumptions/8.md). -/
def execTakeDefinitionsBuildDone (s : State) : Host.Outcome State Fault Refusal :=
  s.takeUp .takeDefinitionsBuildDone fun s =>
    match s.handler.take with
    | some r =>
      if s.sup.mode = .config then
        let s1 := s.setHandler { s.handler with take := none }
        (s1.changeMode .idle).complete .e accepted (BitVec.ofNat 16 r.valid) (BitVec.ofNat 16 r.invalid)
          (match r.lowestInvalid with | some f => BitVec.ofNat 16 f.val | none => 0x00FF)
      else s
    | none => s

/-! ### RETURN TO CONFIG (R28, R103) -/

/-- Every fault becomes UNDEFINED; a lamp's fault whose state changed raises its demand notice (R69). -/
def State.undefineEntry (s : State) (f : FaultNo) : State :=
  let e := s.faults[f]
  let notice : List Instr :=
    match e.defn with
    | some d => if d.lamp ≠ .none then [.demandNotice f] else []
    | none => []
  (s.updateFault f e.undefined).raiseAll notice

/-- RETURN_TO_CONFIG (R28): refused outside IDLE; in IDLE the faults, the provisional captures, the queues, the rings
and the mode, and the result. R28 gives no order among the faults, the buffers, the queues and the rings of the two ports: the
one taken here, seen in the stores, is a DESIGN CHOICE (notes/assumptions/28.md). -/
def execReturnToConfig (s : State) : Host.Outcome State Fault Refusal :=
  s.takeUp .returnToConfig fun s =>
    if s.sup.mode ≠ .idle then s.refuse .e wrongMode
    else
      let s1 := ((List.finRange 128).foldl State.undefineEntry s).releaseProvisional
      let s2 := ((s1.resetQueue .e).resetQueue .a |>.resetRing .e).resetRing .a
      (s2.changeMode .config).complete .e accepted 0 0 0

/-! ### START RIDE (R136, R137, R142 to R146) -/

/-- Step 1 of START RIDE (R145): the ride number, saturating at 65535 (R136), the qualification state (R137), ABS-ready
cleared (R143), and the bulb check running for 200 ticks (R142). R137 has ring A stalled set from the ring state reported
after START RIDE and does not say what it is until then: that step 1 clears it, so that an arrival taken before the first
report finds it clear, is a DESIGN CHOICE (notes/assumptions/32.md). -/
def Supervisor.rideStarted (v : Supervisor) : Supervisor :=
  { v with
    rideNumber := if v.rideNumber = 65535 then 65535 else v.rideNumber + 1, engineRun := 0, previousE := none,
    maxSpeed := 0, lastSpeed := 0, ringAStalled := false, moving := false,
    bulb := some (v.rideClock + BitVec.ofNat 32 Config.bulbTicks), absReady := false }

/-- Steps 1 to 3 of an accepted START RIDE, and the events of step 4 (R145). R73 and R145 give no order among the entries
that are reset, nor among the three words of the qualification: the ascending fault number, which the stores and the notices
show, and the ascending address are a DESIGN CHOICE (notes/assumptions/28.md). -/
def State.beginRide (s : State) : State :=
  let v := s.sup.rideStarted
  let s1 := (s.setSup v).putAll
    [(aRideNumber, v.rideNumber), (aEngineRun, 0), (aMaxSpeed, 0), (aMoving, 0), (aAbsReady, 0)]
  let s2 := s1.raiseAll (.dirtyMark .header :: if s.sup.absReady then [.absReadyChangeNotice] else [])
  let s3 := ((List.finRange 128).foldl State.resetEntry s2).changeMode .ride
  (s3.setHandler { s3.handler with start := some { rings := true, lamps := true } }).raise .rideStartStep

/-- START_RIDE at its owner (R144, R145): the request as dispatched, which any mode but IDLE refuses, and then, with both
parts of step 4 ended, step 5, the completion. R190 has the request complete within its take, R145 has step 5 wait for the
events of step 4, and R146 lets arrivals and takes fall before them: that the take of a START RIDE reaches from the dispatch
over these events to its completion, one event of the handler (R193) though other blocks act meanwhile, is DEDUCED
(notes/assumptions/8.md). -/
def execStartRide (s : State) : Host.Outcome State Fault Refusal :=
  s.takeUp .startRide fun s =>
    match s.handler.start with
    | some r =>
      if r.rings || r.lamps then s
      else (s.setHandler { s.handler with start := none }).complete .e accepted s.sup.rideNumber 0 0
    | none => if s.sup.mode ≠ .idle then s.refuse .e wrongMode else s.beginRide

/-! ### END RIDE and CLOSING (R147 to R149) -/

/-- END_RIDE at its owner (R147): refused outside RIDE; in RIDE the mode becomes CLOSING and both queues start their
drain (R40). -/
def execEndRide (s : State) : Host.Outcome State Fault Refusal :=
  s.takeUp .endRide fun s =>
    if s.sup.mode ≠ .ride then s.refuse .e wrongMode
    else
      let s1 := s.setSup { s.sup with drained := { e := false, a := false }, aged := none, suspects := none }
      ((s1.changeMode .closing).startDrain .e).startDrain .a

/-- POOL_SETTLED (R149, steps 1 to 3): qualification judged (R141), the ride-end event raised at the manager, the
SUSPECT count asked for. -/
def execPoolSettled (s : State) : Host.Outcome State Fault Refusal :=
  s.takeUp .poolSettled fun s =>
    if s.sup.mode = .closing then
      let q := qualifies s.sup.engineRun s.sup.maxSpeed
      (s.setSup { s.sup with qualified := q }).raiseAll [.managerRideEndEvent q, .suspectCount]
    else s

/-- CLOSING_COMPLETE (R149, steps 4 and 5): with both counts in hand the mode becomes IDLE and the result is
written. -/
def execClosingComplete (s : State) : Host.Outcome State Fault Refusal :=
  s.takeUp .closingComplete fun s =>
    match s.sup.aged, s.sup.suspects with
    | some n, some m =>
      if s.sup.mode = .closing then
        let s1 := (s.setSup { s.sup with aged := none, suspects := none }).changeMode .idle
        s1.complete .e accepted (BitVec.ofNat 16 (flag s.sup.qualified)) (BitVec.ofNat 16 n) (BitVec.ofNat 16 m)
      else s
    | _, _ => s

/-- ABS_READY at its owner (R177): refused outside RIDE; in RIDE a clear flag is set, stored and notified. -/
def execAbsReady (s : State) : Host.Outcome State Fault Refusal :=
  s.takeUp .absReady fun s =>
    if s.sup.mode ≠ .ride then s.refuse .a wrongMode
    else if s.sup.absReady then s.complete .a accepted 0 0 0
    else
      (((s.setSup { s.sup with absReady := true }).put aAbsReady 1).raise .absReadyChangeNotice).complete .a accepted 1 0 0

end Sys2Proof.Machine
end

