-- ==== Sys2Proof/Machine/Reset.lean ====
section
/-! DEFINITION. Part reset (spec 07, section 7.2) and the start-up load (spec 08, section 8.4): the hold, the release
with the state after part reset and the load, and the end of START-UP. -/

namespace Sys2Proof.Machine

/-! ### The hold (R130) -/

/-- A transaction that a part reset meets is abandoned (R6, R194). -/
def PortIf.abandon (x : PortIf) : PortIf :=
  { x with link := if x.link = .deselected then .deselected else .abandoned }

/-- The writer stops at once, and the image of a write in flight is left torn (R130, R160). -/
def State.cutWrite (s : State) : State :=
  match s.store.writing with
  | some w =>
    let torn := tornImage s.tears (imageLength w.image) (s.store.image w.image) w.content
    { s with store := { s.store.setImage w.image torn with writing := none }, tears := s.tears + 1 }
  | none => s

/-- The part is held in reset (R130): the writer stops, the transactions end, the lamp outputs are off, and with
`held` the attention lines are released. -/
def State.hold (s : State) : State :=
  { s.cutWrite with
    held := true, ports := { e := s.ports.e.abandon, a := s.ports.a.abandon },
    lamps := { s.lamps with engine := { s.lamps.engine with output := false },
                            abs := { s.lamps.abs with output := false } } }

/-- RESET_HOLD (R130): a part that is held stays held. -/
def execResetHold (s : State) : Host.Outcome State Fault Refusal :=
  let s0 := s.begin .resetHold
  .next (if s0.held then s0 else s0.hold)

/-! ### What the load reads from an image (R154, R165) -/

/-- A slot image as the load finds it (R154). -/
inductive SlotImage
  | bad
  | erased
  | record (r : Record)
  deriving DecidableEq, Repr

/-- The record that the record part of an image gives, with the slot state of the image; the episode flag is clear,
no capture is awaited and the frame reference is absent (R165). `none` where a field fails its check (R154). -/
def recordOfImage (m : Mem) (st : RecordState) : Option Record :=
  let w0 := m.read 0
  let w1 := m.read 1
  let w2 := m.read 2
  let fault := bits w1 0 8
  let priority := bits w1 8 4
  if h : fault < 128 ∧ priority ≠ 0 ∧ bits w2 0 8 ≠ 0 ∧ bits w2 8 8 ≤ 250 ∧ bits w0 4 3 ≤ 4 then
    some
      { state := st, fault := ⟨fault, h.1⟩, priority := BitVec.ofNat 4 priority, lamp := lampOfCode (bits w1 12 2),
        pattern := patternOfCode (bits w1 14 1), occurrence := bits w2 0 8, age := bits w2 8 8, lampLatch := bit w0 2,
        clean := bits (m.read 3) 0 3, firstRide := m.read 4, lastRide := m.read 5,
        firstFail := twoWords (m.read 6) (m.read 7), lastConfirm := twoWords (m.read 8) (m.read 9), frame := none,
        frameStatus := frameStatusOfCode (bits w0 4 3), preShort := bit w0 7, gap := bit w0 8, episodeFlag := false,
        awaited := none }
  else none

/-- The judgement of a slot image (R154). -/
def readSlotImage (m : Mem) : SlotImage :=
  if m.sum ≠ Config.imageSum then .bad
  else
    match bits (m.read 0) 0 2 with
    | 0 => if m.all (fun c => decide (c.1 = 10)) then .erased else .bad
    | 1 => match recordOfImage m .active with | some r => .record r | none => .bad
    | 2 => match recordOfImage m .stored with | some r => .record r | none => .bad
    | _ => .bad

/-- The ride number of a valid header image; a bad one gives none (R154, R162). -/
def readHeaderImage (m : Mem) : Option Word :=
  if m.sum = Config.imageSum ∧ m.read 0 = Config.formatMark then some (m.read 1) else none

/-- The capture of a sound frame part as the load sets it (R165, R166): CLOSED, and SHORT where it was CAPTURING.
Neither the priority nor the episode number stands in the image; the record gives the former. -/
def captureOfImage (m : Mem) (i : SlotNo) (r : Record) : Option Capture :=
  let w0 := m.read framePart
  let w3 := m.read (framePart + 3)
  let w4 := m.read (framePart + 4)
  let closed := bit w4 0
  let short := bit w4 1
  let agrees :=
    match r.frameStatus with
    | .capturing => !closed
    | .complete => closed && !short
    | .short => closed && short
    | _ => false
  if agrees = true ∧ bits w0 0 8 = r.fault.val ∧ bits w0 8 2 = 2 ∧ bits w3 4 4 ≤ bits w3 0 4 ∧ bits w3 12 4 ≤ bits w3 8 4 then
    some
      { holder := .record i, fault := r.fault, priority := r.priority, ring := if bit w0 10 then .a else .e,
        episode := { number := 0, time := twoWords (m.read (framePart + 1)) (m.read (framePart + 2)) },
        state := if r.frameStatus = .complete then .complete else .short, preWanted := bits w3 0 4,
        preGot := bits w3 4 4, postWanted := bits w3 8 4, postGot := bits w3 12 4, preShort := bit w4 2,
        gap := bit w4 3 }
  else none

/-! ### Duplicates and the ride number (R162, R164) -/

/-- Of two records of one fault, whether that of slot `i` is kept before that of slot `j` (R164). -/
def keptBefore (r : Record) (i : SlotNo) (q : Record) (j : SlotNo) : Bool :=
  if r.lastRide ≠ q.lastRide then decide (q.lastRide < r.lastRide)
  else if r.lastConfirm ≠ q.lastConfirm then decide (q.lastConfirm < r.lastConfirm)
  else decide (i < j)

/-- The record of slot `i` that survives step 3 of the load: no other valid record image of its fault is kept before
it (R164). -/
def survivor (images : SlotNo → SlotImage) (i : SlotNo) : Option Record :=
  match images i with
  | .record r =>
    if (List.finRange 16).any fun j =>
        match images j with
        | .record q => decide (q.fault = r.fault) && keptBefore q j r i
        | _ => false
    then none else some r
  | _ => none

/-- The highest last-confirm ride number among the surviving records, 0 if there is none (R162). -/
def highestRide (images : SlotNo → SlotImage) : Word :=
  (List.finRange 16).foldl (fun n i =>
    match survivor images i with
    | some r => if n < r.lastRide then r.lastRide else n
    | none => n) 0

/-! ### The load (R161 to R167) -/

/-- The load marks an image. The dirty count word is stored as START-UP ends (R161). -/
def State.markLoaded (s : State) (x : ImageId) : State := s.setStore (s.store.marked x)

def State.setDamaged (s : State) : State := s.setStore { s.store with damaged := true }

/-- Steps 1 and 4: the header image and the settled ride number (R162). -/
def State.loadHeader (s : State) (images : SlotNo → SlotImage) : State :=
  let highest := highestRide images
  match readHeaderImage s.store.header with
  | some n =>
    if n < highest then (s.setSup { s.sup with rideNumber := highest }).markLoaded .header
    else s.setSup { s.sup with rideNumber := n }
  | none => ((s.setSup { s.sup with rideNumber := highest }).markLoaded .header).setDamaged

/-- The samples of a frame part that the counts cover, copied into buffer `b` (R166). -/
def loadedSamples (m : Mem) (b : BufNo) (c : Capture) : List (Nat × Word) :=
  (List.range (c.preGot + c.postGot)).flatMap fun k => wordsAt (placeAddress b k) (m.readRange (imagePlace k) 8)

/-- A record is placed in slot `i` (R165). Its view is written once every frame has its buffer (R166). -/
def State.placeRecord (s : State) (i : SlotNo) (r : Record) : State := s.setSlots (s.slots.set i (some r))

/-- Steps 5 and 6 for the surviving record of slot `i` (R165, R166): its state from the lamp latch; with a sound frame,
the lowest-numbered free buffer, filled; with an unsound one, MISSED. -/
def State.loadRecord (s : State) (i : SlotNo) (m : Mem) (r : Record) : State :=
  let r1 := r.recomputed
  let s1 := if r1.state = r.state then s else s.markLoaded (.slot i)
  if r.frameStatus.framed then
    match captureOfImage m i r with
    | some c =>
      match s1.findBuffer Option.isNone with
      | some b =>
        let s2 := (((s1.setBuffer b (some c)).putAll (loadedSamples m b c)).publishHeader b).placeRecord i
          { r1 with frame := some b, frameStatus := captureFrameStatus c.state }
        if r.frameStatus = .capturing then s2.markLoaded (.slot i) else s2
      | none => s1.placeRecord i r1
    | none =>
      ((s1.markLoaded (.slot i)).setDamaged).placeRecord i
        { r1 with frameStatus := .missed, preShort := false, gap := false }
  else s1.placeRecord i r1

/-- Steps 2, 3, 5 and 6 for slot `i` (R163 to R166). -/
def State.loadSlot (images : SlotNo → SlotImage) (s : State) (i : SlotNo) : State :=
  match images i with
  | .bad => (s.markLoaded (.slot i)).setDamaged
  | .erased => s
  | .record _ =>
    match survivor images i with
    | some r => s.loadRecord i s.store.images[i] r
    | none => s.markLoaded (.slot i)

/-- The view of a placed record is written, and a record lamp notice raised if it contributes to a lamp (R166, R172). -/
def State.showLoaded (s : State) (i : SlotNo) : State :=
  match s.slots[i] with
  | some _ => State.handLamps none (Vector.replicate 16 none) (s.publishRecord i) i
  | none => s

/-- Step 7: the index list of the placed records, written where there is one to list (R166). -/
def State.loadIndex (s : State) : State :=
  let new := indexOf s.slots
  if new = [] then s else (s.setIndex new).publishIndex

/-- The load (R161), all of it but its report. R166 has the record views written "then", after the frames of step 6, and
does not say whether after each or after all: after all is DEDUCED (notes/assumptions/25.md). -/
def State.load (s : State) : State :=
  let images := fun i : SlotNo => readSlotImage s.store.images[i]
  let placed := (List.finRange 16).foldl (State.loadSlot images) (s.loadHeader images)
  ((List.finRange 16).foldl State.showLoaded placed).loadIndex

/-! ### The release (R131) -/

/-- Every block at its value after part reset, the SRR zero, the dirty set empty and the latches clear. What stands is
the images, the level of SUPPLY-LOW and of the chip selects, and the commands that wait outside the part. -/
def State.afterReset (s : State) : State :=
  { State.reset with
    pending := s.pending, inFlight := [], tears := s.tears,
    ports := { e := { PortIf.reset with link := s.ports.e.abandon.link },
               a := { PortIf.reset with link := s.ports.a.abandon.link } },
    store := { Store.delivered with header := s.store.header, images := s.store.images,
                                    supplyLow := s.store.supplyLow } }

/-- PART_RESET (R131, R161): the hold ends, the part enters START-UP and loads its images; the load complete is
reported next. A part reset that no hold preceded begins with one. R129 counts a part reset among the mode changes, with
their notices; that none is raised here, nor, from RIDE, one at the Frame Capture Unit, and the resets of the blocks take
their place, is a DESIGN CHOICE (notes/assumptions/35.md). -/
def execPartReset (s : State) : Host.Outcome State Fault Refusal :=
  let s0 := s.begin .partReset
  let s1 := if s0.held then s0 else s0.hold
  .next (s1.afterReset.load.raise .loadComplete)

/-! ### The end of START-UP (R132) -/

/-- The queue, ring and attention words of port X, which stand at 0 (R132). R180 has the Attention Unit store nothing as
START-UP ends; that its words are stored with the others, as R132 lists them, is a DESIGN CHOICE
(notes/assumptions/19.md), seen in `stores` alone. -/
def standingZeros (p : Port) : List (Nat × Word) :=
  [aTop p, aBottom p, aQueueMask p, aEmptyLevel p, aFullLevel p, aOccupancy p, aHead p, aRingMask p, aRingState p,
    aEnable p, aPolarity p, aOrder p, aLatched p, aTopCause p, aRejectReason p, aRejectFault p, aRejectIndex p].map
    fun a => (a, 0)

/-- The published state as it stands after the load (R132), which orders the mode word alone, behind all of it: the order
among these words is a DESIGN CHOICE (notes/assumptions/28.md). -/
def State.publishedAtEnd (s : State) : List (Nat × Word) :=
  [(0x0000, Config.partCode), (0x0001, Config.revision), (aClockLow, lowWord s.sup.rideClock),
    (aClockHigh, highWord s.sup.rideClock), (aRideNumber, s.sup.rideNumber),
    (aEngineRun, BitVec.ofNat 16 s.sup.engineRun), (aMaxSpeed, s.sup.maxSpeed),
    (aMoving, BitVec.ofNat 16 (flag s.sup.moving)), (aAbsReady, BitVec.ofNat 16 (flag s.sup.absReady)),
    (aDirty, BitVec.ofNat 16 s.store.dirty.length), (aWriter, s.store.writerWord),
    (aSupply, BitVec.ofNat 16 (flag s.store.supplyLow)), (aLamp .engine, s.lamps.engine.word),
    (aLamp .abs, s.lamps.abs.word)] ++ standingZeros .e ++ standingZeros .a

/-- The intake's state of both queues as the mode leaves START-UP, the levels set without latching (R30). -/
def State.settleIntake (s : State) : State :=
  (((s.setQueue .e Queue.reset).setQueue .a Queue.reset).setLevels .e).setLevels .a

/-- LOAD_COMPLETE (R132): every block stores its published state, the intake sets its state, and the mode word is
stored last. -/
def execLoadComplete (s : State) : Host.Outcome State Fault Refusal :=
  s.take .loadComplete fun s =>
    if s.sup.mode = .startUp then ((s.putAll s.publishedAtEnd).settleIntake).changeMode .config else s

end Sys2Proof.Machine
end

