-- ==== Sys2Proof/Machine/Dispatch.lean ====
section
/-! DEFINITION. One arm for each command of spec/opcode_table.json, each a call of its meaning. -/

namespace Sys2Proof.Machine

def exec (i : Instr) (s : State) : Host.Outcome State Fault Refusal :=
  match i with
  | .read port burst count => Sys2Proof.Machine.execRead port burst count s
  | .write port burst words => Sys2Proof.Machine.execWrite port burst words s
  | .swap port form => Sys2Proof.Machine.execSwap port form s
  | .status port opens count => Sys2Proof.Machine.execStatus port opens count s
  | .restart port extraBits => Sys2Proof.Machine.execRestart port extraBits s
  | .badCommand port byte extra => Sys2Proof.Machine.execBadCommand port byte extra s
  | .topTaken port top => Sys2Proof.Machine.execTopTaken port top s
  | .levelReEvaluation port level => Sys2Proof.Machine.execLevelReEvaluation port level s
  | .recordTake port => Sys2Proof.Machine.execRecordTake port s
  | .queueDrained port => Sys2Proof.Machine.execQueueDrained port s
  | .intakeRestart port => Sys2Proof.Machine.execIntakeRestart port s
  | .headWritten port head => Sys2Proof.Machine.execHeadWritten port head s
  | .qualificationArrival ring time ch0 => Sys2Proof.Machine.execQualificationArrival ring time ch0 s
  | .ringStateReport ring state => Sys2Proof.Machine.execRingStateReport ring state s
  | .stallTimerExpiry ring => Sys2Proof.Machine.execStallTimerExpiry ring s
  | .fcuModeNotice edge => Sys2Proof.Machine.execFcuModeNotice edge s
  | .ringRestart port => Sys2Proof.Machine.execRingRestart port s
  | .trigger fault episode ring pre post priority => Sys2Proof.Machine.execTrigger fault episode ring pre post priority s
  | .deadlineExpiry buffer => Sys2Proof.Machine.execDeadlineExpiry buffer s
  | .confirmNotice fault episode => Sys2Proof.Machine.execConfirmNotice fault episode s
  | .episodeClose fault episode => Sys2Proof.Machine.execEpisodeClose fault episode s
  | .entryResetDiscard fault buffer => Sys2Proof.Machine.execEntryResetDiscard fault buffer s
  | .attachDirection fault episode slot => Sys2Proof.Machine.execAttachDirection fault episode slot s
  | .discardDirection fault episode => Sys2Proof.Machine.execDiscardDirection fault episode s
  | .bufferFree slot buffer => Sys2Proof.Machine.execBufferFree slot buffer s
  | .captureUnitClear fault => Sys2Proof.Machine.execCaptureUnitClear fault s
  | .fcuRideEndEvent => Sys2Proof.Machine.execFcuRideEndEvent s
  | .captureOpened fault buffer episode => Sys2Proof.Machine.execCaptureOpened fault buffer episode s
  | .captureLost fault lost => Sys2Proof.Machine.execCaptureLost fault lost s
  | .captureReleased fault buffer episode => Sys2Proof.Machine.execCaptureReleased fault buffer episode s
  | .slotNotice fault slot unstored => Sys2Proof.Machine.execSlotNotice fault slot unstored s
  | .qualifierClear fault => Sys2Proof.Machine.execQualifierClear fault s
  | .suspectCount => Sys2Proof.Machine.execSuspectCount s
  | .confirmEvent fault episode time priority lamp pattern ringNone => Sys2Proof.Machine.execConfirmEvent fault episode time priority lamp pattern ringNone s
  | .heal fault => Sys2Proof.Machine.execHeal fault s
  | .frameChangeNotice slot buffer fault episode state preShort gap => Sys2Proof.Machine.execFrameChangeNotice slot buffer fault episode state preShort gap s
  | .noFrameNotice slot fault episode => Sys2Proof.Machine.execNoFrameNotice slot fault episode s
  | .clearEvent fault => Sys2Proof.Machine.execClearEvent fault s
  | .managerRideEndEvent qualifying => Sys2Proof.Machine.execManagerRideEndEvent qualifying s
  | .takeDefinitions => Sys2Proof.Machine.execTakeDefinitions s
  | .returnToConfig => Sys2Proof.Machine.execReturnToConfig s
  | .startRide => Sys2Proof.Machine.execStartRide s
  | .endRide => Sys2Proof.Machine.execEndRide s
  | .poolSettled => Sys2Proof.Machine.execPoolSettled s
  | .closingComplete => Sys2Proof.Machine.execClosingComplete s
  | .clearFaults argument => Sys2Proof.Machine.execClearFaults argument s
  | .absReady => Sys2Proof.Machine.execAbsReady s
  | .requestPosted port => Sys2Proof.Machine.execRequestPosted port s
  | .requestReleased port => Sys2Proof.Machine.execRequestReleased port s
  | .waitingRequestTake port => Sys2Proof.Machine.execWaitingRequestTake port s
  | .requestRestart port => Sys2Proof.Machine.execRequestRestart port s
  | .latchRequest port cause => Sys2Proof.Machine.execLatchRequest port cause s
  | .maskChange port which value => Sys2Proof.Machine.execMaskChange port which value s
  | .acknowledgement port value => Sys2Proof.Machine.execAcknowledgement port value s
  | .attentionRestart port => Sys2Proof.Machine.execAttentionRestart port s
  | .rideClockTick => Sys2Proof.Machine.execRideClockTick s
  | .bulbCheckExpiry => Sys2Proof.Machine.execBulbCheckExpiry s
  | .flashTick => Sys2Proof.Machine.execFlashTick s
  | .demandNotice fault => Sys2Proof.Machine.execDemandNotice fault s
  | .recordLampNotice lamps => Sys2Proof.Machine.execRecordLampNotice lamps s
  | .modeNotice => Sys2Proof.Machine.execModeNotice s
  | .bulbCheckExpiryNotice => Sys2Proof.Machine.execBulbCheckExpiryNotice s
  | .absReadyChangeNotice => Sys2Proof.Machine.execAbsReadyChangeNotice s
  | .rideStartStep => Sys2Proof.Machine.execRideStartStep s
  | .overcurrentDetection lamp => Sys2Proof.Machine.execOvercurrentDetection lamp s
  | .dirtyMark image => Sys2Proof.Machine.execDirtyMark image s
  | .writeStart => Sys2Proof.Machine.execWriteStart s
  | .writeCompletion => Sys2Proof.Machine.execWriteCompletion s
  | .supplyLowChange level => Sys2Proof.Machine.execSupplyLowChange level s
  | .resetHold => Sys2Proof.Machine.execResetHold s
  | .partReset => Sys2Proof.Machine.execPartReset s
  | .loadComplete => Sys2Proof.Machine.execLoadComplete s
  | .takeDefinitionsBuildDone => Sys2Proof.Machine.execTakeDefinitionsBuildDone s
  | .chipSelectRise port => Sys2Proof.Machine.execChipSelectRise port s

end Sys2Proof.Machine
end

