-- ==== Sys2Proof/Safety.lean ====
section
/-! DEFINITION. What the claims speak of: the invariants of the part, the mode changes there are, the orders in which
events may be taken, and how far a command reaches. -/

namespace Sys2Proof.Machine

/-! ### Captures and memories -/

/-- The counts of a capture (R19, R85, R93): got never exceeds wanted, wanted is at most 15, and an OPEN capture still
wants a post sample. -/
structure Capture.Wf (c : Capture) : Prop where
  pre      : c.preGot ≤ c.preWanted
  preMax   : c.preWanted ≤ 15
  post     : c.postGot ≤ c.postWanted
  postMax  : c.postWanted ≤ 15
  wantsOne : c.state = .opened → c.postGot < c.postWanted

def State.CapturesWf (s : State) : Prop := ∀ (b : BufNo) (c : Capture), s.pool[b] = some c → c.Wf

/-- A memory of `n` words in canonical form. -/
def Mem.Canonical (m : Mem) (n : Nat) : Prop := m.wf = true ∧ m.below n = true

/-- An address at which the SRR reads 0x0000 at all times: an unassigned one (R1 to R4), the acknowledge word, which has no
storage (R3), and words 11 to 31 of a record view (R18). -/
abbrev readsZero (a : Nat) : Prop :=
  (0x000F ≤ a ∧ a ≤ 0x00FF) ∨ (0x0111 ≤ a ∧ a ≤ 0x013F) ∨ (0x0151 ≤ a ∧ a ≤ 0x017F) ∨ (0x0189 ≤ a ∧ a ≤ 0x018F) ∨
  (0x0199 ≤ a ∧ a ≤ 0x01FF) ∨ (0x1E20 ≤ a ∧ a ≤ 0x27FF) ∨ 0x3F40 ≤ a ∨ a = 0x010C ∨ a = 0x014C ∨
  (0x1C00 ≤ a ∧ a ≤ 0x1DFF ∧ 11 ≤ a % 32)

/-- The SRR, every image and the content of a write in flight are canonical and within their sizes (R1, R152, R153), and
the words of the SRR without storage read 0 (R1, R3, R8, R18). -/
structure State.MemoryWf (s : State) : Prop where
  srr      : s.srr.Canonical Config.srrWords
  zeros    : ∀ a, readsZero a → s.srr.read a = 0
  header   : s.store.header.Canonical 3
  images   : ∀ i : SlotNo, (s.store.images[i]).Canonical Config.slotImageWords
  writing  : ∀ w, s.store.writing = some w → w.content.Canonical (imageLength w.image)
  captures : s.CapturesWf

/-! ### Queues and rings -/

/-- The ranges of R30: the occupancy is the distance from bottom to taken top and at most the capacity, a power of two
in 16..512; in CLOSING the drain count is at most the capacity (R40, R41). -/
structure Queue.Wf (q : Queue) (mode : Mode) : Prop where
  capacity  : q.capacity ∈ [16, 32, 64, 128, 256, 512]
  occupancy : q.occupancy = (q.takenTop - q.bottom).toNat
  fits      : q.occupancy ≤ q.capacity
  drain     : mode = .closing → q.drain ≤ q.capacity

/-- The capacity and the held count of R78; the stall timer's range is `State.TimersWf`. -/
structure Tracker.Wf (t : Tracker) : Prop where
  capacity : t.capacity ∈ [16, 32, 64]
  held     : t.held ≤ t.capacity

def State.QueuesWf (s : State) : Prop :=
  ∀ p : Port, (s.queues.get p).Wf s.sup.mode ∧ (s.rings.get p).Wf

/-- The range of the stall timer, which runs only while its ring is LIVE (R78, R83). -/
def State.TimersWf (s : State) : Prop :=
  ∀ (p : Port) (n : Nat), (s.rings.get p).timer = some n → (s.rings.get p).state = .live ∧ n ≤ 50

/-! ### Faults -/

/-- The ranges that R24 lets into a definition. -/
structure Definition.Wf (d : Definition) : Prop where
  gF       : 1 ≤ d.gF ∧ d.gF ≤ 32767
  gP       : 1 ≤ d.gP ∧ d.gP ≤ 32767
  confirm  : 1 ≤ d.confirm ∧ d.confirm ≤ 2000000
  healMag  : 1 ≤ d.healMag ∧ d.healMag ≤ 2000000
  lampHeal : 1 ≤ d.lampHeal ∧ d.lampHeal ≤ 7
  aging    : d.aging ≤ 250

/-- An episode of the fault is open (R50, R64). -/
def Phase.episodeOpen : Phase → Bool
  | .suspect => true
  | .confirmed => true
  | .recovering => true
  | _ => false

/-- Where the accumulator of a defined fault stands in each state (the state summary of section 4.5; R57, R59 to R62). -/
def Phase.admits (d : Definition) (a : Int) : Phase → Prop
  | .untested => a = 0
  | .passing => d.healAt < a ∧ a < 0
  | .passed => a = d.healAt
  | .suspect => d.healAt < a ∧ a < d.confirmAt
  | .confirmed => a = d.confirmAt
  | .recovering => d.healAt < a ∧ a < d.confirmAt

/-- What holds of an entry at all times: an UNDEFINED fault has every field but its episode number at its value after part
reset (R28, R50); the accumulator of a defined one stands where its state has it, which is in H..C (R57); a trigger time
stands exactly while an episode is open, and a capture reference only in SUSPECT (R59 to R62, R67, R68, R72). -/
structure FaultEntry.Wf (e : FaultEntry) : Prop where
  undefined : e.defn = none → e = { FaultEntry.reset with episode := e.episode }
  defined   : ∀ d, e.defn = some d → d.Wf ∧ e.phase.admits d e.acc
  trigger   : e.trigger.isSome = e.phase.episodeOpen
  capture   : e.phase ≠ .suspect → e.capture = none

/-- Every entry is in order, and so is every definition that a running TAKE DEFINITIONS has found (R24). -/
structure State.FaultsWf (s : State) : Prop where
  entries : ∀ f : FaultNo, (s.faults[f]).Wf
  found   : ∀ r, s.handler.take = some r → ∀ (f : FaultNo) (d : Definition), r.found[f] = some d → d.Wf

/-! ### Event memory -/

/-- The ranges of R105 and R124, and the state of R117. -/
structure Record.Wf (r : Record) : Prop where
  state      : r.state = r.computedState
  occurrence : 1 ≤ r.occurrence ∧ r.occurrence ≤ 255
  age        : r.age ≤ 250
  clean      : r.clean ≤ 7

/-- Event memory: the ranges of each record, at most one record for a fault (R107), and the index list that of the
slots in use, in order (R119). -/
structure State.EventMemoryWf (s : State) : Prop where
  records : ∀ (i : SlotNo) (r : Record), s.slots[i] = some r → r.Wf
  single  : ∀ (i j : SlotNo) (r q : Record), s.slots[i] = some r → s.slots[j] = some q → r.fault = q.fault → i = j
  index   : s.index = indexOf s.slots

/-! ### Views and mirrors -/

/-- Every view shows the state it mirrors, and its change counter is even (R14, R17, R18, R19). -/
structure State.ViewsFaithful (s : State) : Prop where
  faults  : ∀ f : FaultNo,
    s.srr.read (faultView f) = (s.faults[f]).stateWord ∧
    s.srr.read (faultView f + 1) = lowWord (s.faults[f]).accWord ∧
    s.srr.read (faultView f + 2) = highWord (s.faults[f]).accWord ∧
    bits (s.srr.read (faultView f + 3)) 0 10 = (s.faults[f]).refs ∧
    bits (s.srr.read (faultView f + 3)) 10 6 % 2 = 0
  records : ∀ i : SlotNo,
    s.srr.readRange (recordView i) 10 = recordWords s.slots[i] ∧ bit (s.srr.read (recordView i + 10)) 0 = false
  index   :
    s.srr.readRange indexView 1 ++ s.srr.readRange (indexView + 2) 30
      = BitVec.ofNat 16 s.index.length :: indexWords s.index ∧ bit (s.srr.read (indexView + 1)) 0 = false
  frames  : ∀ b : BufNo,
    s.srr.readRange (bufferBase b) 7 = headerWords s.pool[b] ∧ bit (s.srr.read (bufferBase b + 7)) 0 = false

/-- The control area shows the state outside START-UP while the part is not held in reset (R2, R129, R134, R136, R137,
R140, R143, R155, R168, R169), and the words of the queues and rings theirs (R4, R30, R83). -/
structure State.ControlArea (s : State) : Prop where
  mode     : s.srr.read aMode = BitVec.ofNat 16 s.sup.mode.code
  clock    : s.srr.read aClockLow = lowWord s.sup.rideClock ∧ s.srr.read aClockHigh = highWord s.sup.rideClock
  ride     : s.srr.read aRideNumber = s.sup.rideNumber
  engine   : s.srr.read aEngineRun = BitVec.ofNat 16 s.sup.engineRun
  speed    : s.srr.read aMaxSpeed = s.sup.maxSpeed
  moving   : s.srr.read aMoving = BitVec.ofNat 16 (flag s.sup.moving)
  absReady : s.srr.read aAbsReady = BitVec.ofNat 16 (flag s.sup.absReady)
  dirty    : s.srr.read aDirty = BitVec.ofNat 16 s.store.dirty.length
  writer   : s.srr.read aWriter = s.store.writerWord
  supply   : s.srr.read aSupply = BitVec.ofNat 16 (flag s.store.supplyLow)
  lamps    : ∀ k : Lamp, s.srr.read (aLamp k) = (s.lamps.get k).word
  queues   : ∀ p : Port, s.srr.read (aBottom p) = (s.queues.get p).bottom ∧
    s.srr.read (aOccupancy p) = BitVec.ofNat 16 (s.queues.get p).occupancy
  rings    : ∀ p : Port, s.srr.read (aRingState p) = BitVec.ofNat 16 (ringStateCode (s.rings.get p).state)

/-- And in START-UP both rings are QUIET, as their words will show at its end (R78, R131, R132). -/
structure State.ControlAreaWf (s : State) : Prop where
  shows : s.held = false → s.sup.mode ≠ .startUp → s.ControlArea
  quiet : s.sup.mode = .startUp → ∀ p : Port, (s.rings.get p).state = .quiet

/-- The enable set that the Attention Unit holds is the one the word of its port shows, while no store of the word waits to
be taken; in START-UP none waits, and both sets are empty (R13, R180, R181, R183). -/
structure State.EnablesFollow (s : State) : Prop where
  shows : s.held = false → ∀ p : Port, (∀ v, Instr.maskChange p .enable v ∉ s.inFlight) →
    s.srr.read (aEnable p) = s.enables.get p
  empty : s.held = false → s.sup.mode = .startUp → ∀ p : Port,
    s.enables.get p = 0 ∧ ∀ v, Instr.maskChange p .enable v ∉ s.inFlight

/-- The dirty set holds each image at most once, and the image in flight (R155). -/
structure State.DirtyWf (s : State) : Prop where
  once     : s.store.dirty.Nodup
  inFlight : ∀ w, s.store.writing = some w → w.image ∈ s.store.dirty

/-! ### Modes -/

/-- The mode changes of R129's table. -/
def modeChange : Instr → Mode → Mode → Bool
  | .partReset, _, .startUp => true
  | .loadComplete, .startUp, .config => true
  | .takeDefinitionsBuildDone, .config, .idle => true
  | .returnToConfig, .idle, .config => true
  | .startRide, .idle, .ride => true
  | .endRide, .ride, .closing => true
  | .closingComplete, .closing, .idle => true
  | _, _, _ => false

/-- The FDT and the mask words are locked in CONFIG alone (R5, R23, R28). -/
def State.LockWf (s : State) : Prop := s.handler.fdtLocked = true → s.sup.mode = .config

/-! ### How far a command reaches -/

/-- Every word outside `area` reads as before. -/
def SrrOnly (s t : State) (area : Nat → Prop) : Prop := ∀ a, ¬ area a → t.srr.read a = s.srr.read a

/-- Nothing in the SRR has changed. -/
def SrrSame (s t : State) : Prop := ∀ a, t.srr.read a = s.srr.read a

/-- The event has been taken from those in flight, and `raised` stand behind those left. The order in which one event's
`raised` stand where no rule orders them is the model's choice (notes/assumptions/3.md); which of them must be taken before
which is `mustPrecede`. -/
def Raises (c : Instr) (s t : State) (raised : List Instr) : Prop := t.inFlight = s.inFlight.erase c ++ raised

/-- The areas of the views. -/
def inFaultView (f : FaultNo) (a : Nat) : Prop := faultView f ≤ a ∧ a < faultView f + 4
def inRecordView (i : SlotNo) (a : Nat) : Prop := recordView i ≤ a ∧ a < recordView i + 32
def inIndexView (a : Nat) : Prop := indexView ≤ a ∧ a < indexView + 32
def inHeader (b : BufNo) (a : Nat) : Prop := bufferBase b ≤ a ∧ a < bufferBase b + 8
def inBuffer (b : BufNo) (a : Nat) : Prop := bufferBase b ≤ a ∧ a < bufferBase b + 248

/-- The part takes events: it is not held in reset, and START-UP has ended (R13, R130, R131). -/
def State.Running (s : State) : Prop := s.held = false ∧ s.sup.mode ≠ .startUp

/-- A view has been rewritten once: its words show the state, and its change counter has gone up by two (R14). That the
counter of a record view counts on where the slot becomes FREE is the model's choice (notes/assumptions/30.md). -/
def HeaderRewritten (s t : State) (b : BufNo) : Prop :=
  t.srr.readRange (bufferBase b) 7 = headerWords t.pool[b] ∧
  t.srr.read (bufferBase b + 7) = s.srr.read (bufferBase b + 7) + 2

/-- The header of a buffer has been rewritten `n` times in one command: its words show the state, and its change counter has
gone up by two each time (R14, R19). -/
def HeaderRewrites (s t : State) (b : BufNo) (n : Nat) : Prop :=
  t.srr.readRange (bufferBase b) 7 = headerWords t.pool[b] ∧
  t.srr.read (bufferBase b + 7) = s.srr.read (bufferBase b + 7) + BitVec.ofNat 16 (2 * n)

def RecordRewritten (s t : State) (i : SlotNo) : Prop :=
  t.srr.readRange (recordView i) 10 = recordWords t.slots[i] ∧
  t.srr.read (recordView i + 10) = s.srr.read (recordView i + 10) + 2

def IndexRewritten (s t : State) : Prop :=
  t.srr.readRange indexView 1 ++ t.srr.readRange (indexView + 2) 30
    = BitVec.ofNat 16 t.index.length :: indexWords t.index ∧
  t.srr.read (indexView + 1) = s.srr.read (indexView + 1) + 2

def FaultRewritten (s t : State) (f : FaultNo) : Prop :=
  t.srr.read (faultView f) = (t.faults[f]).stateWord ∧
  t.srr.read (faultView f + 1) = lowWord (t.faults[f]).accWord ∧
  t.srr.read (faultView f + 2) = highWord (t.faults[f]).accWord ∧
  t.srr.read (faultView f + 3) =
    refsWord (t.faults[f]).refs (bits (s.srr.read (faultView f + 3)) 10 6 + 2)

/-- The view of a fault after one event: rewritten once where a published field changed, and left alone where none did
(R52). -/
def FaultViewKept (s t : State) (f : FaultNo) : Prop :=
  ((s.faults[f]).published = (t.faults[f]).published → ∀ a, inFaultView f a → t.srr.read a = s.srr.read a) ∧
  ((s.faults[f]).published ≠ (t.faults[f]).published → FaultRewritten s t f)

/-- Buffer `b` is the lowest-numbered one of which `which` holds (R85, R87). -/
def LowestBuffer (s : State) (which : Option Capture → Prop) (b : BufNo) : Prop :=
  which s.pool[b] ∧ ∀ b' : BufNo, b' < b → ¬ which s.pool[b']

/-- A buffer holds the capture of that holder, fault and episode (R64). -/
def Holds (h : Holder) (f : FaultNo) (ep : EpisodeId) (o : Option Capture) : Prop :=
  ∃ c, o = some c ∧ c.holder = h ∧ c.fault = f ∧ c.episode = ep

/-- The causes that an evaluation of the level conditions of queue `p` requests, from the values they had in `q` and have
in `q'` (R43): an entry under polarity bit 0, an exit under polarity bit 1; bit 10 is QEMPTY's and bit 9 QFULL's. -/
def levelRequests (p : Port) (polarity : Word) (q q' : Queue) : List Instr :=
  (if q.almostEmpty ≠ q'.almostEmpty ∧ polarity.getLsbD 10 = q.almostEmpty then [.latchRequest p ⟨.qempty, none⟩] else []) ++
  (if q.almostFull ≠ q'.almostFull ∧ polarity.getLsbD 9 = q.almostFull then [.latchRequest p ⟨.qfull, none⟩] else [])

/-- The two level conditions of `q` are those of R42 for its occupancy, its capacity and the level words of queue
`p`. -/
def LevelsHold (s : State) (p : Port) (q : Queue) : Prop :=
  q.almostEmpty = decide (q.occupancy ≤ min (s.srr.read (aEmptyLevel p)).toNat q.capacity) ∧
  q.almostFull = decide (q.capacity ≤ q.occupancy + min (s.srr.read (aFullLevel p)).toNat q.capacity)

/-- The report that queue `p` is drained, once for an END RIDE (R41). -/
def drainedReport (s : State) (p : Port) (drain : Nat) : List Instr :=
  if s.sup.mode = .closing ∧ drain = 0 ∧ (s.queues.get p).reported = false then [.queueDrained p] else []

/-- An arrival handed to the Ride Supervisor (R80). -/
def isArrival : Instr → Bool
  | .qualificationArrival _ _ _ => true
  | _ => false

/-- How many samples arrive for an advance: all of them, the last capacity's worth after an overwrite, none after a
backward move (R79). -/
def arrivalsOf (advance capacity : Nat) : Nat :=
  if advance ≤ capacity then advance else if advance ≤ 32767 then capacity else 0

/-- An OPEN capture of ring `p`. -/
def OpenOn (p : Port) (c : Capture) : Prop := c.state = .opened ∧ c.ring = p

/-- The frame change notice of a capture in buffer `b`, if a record holds it (R86). -/
def frameNotice (b : BufNo) (c : Capture) : List Instr :=
  match c.holder with
  | .record i => [.frameChangeNotice i b c.fault c.episode c.state c.preShort c.gap]
  | _ => []

/-- Every buffer that `changed` names has its header rewritten once and, if a record holds it, its notice raised; the
other buffers stand as they were (R86). -/
def BuffersChanged (s t : State) (change : BufNo → Capture → Option Capture) : Prop :=
  (∀ b : BufNo, t.pool[b] = match s.pool[b] with
    | some c => (change b c).elim (some c) some
    | none => none) ∧
  ∀ (b : BufNo) (c c' : Capture), s.pool[b] = some c → change b c = some c' → HeaderRewritten s t b

/-- The notices of those changes, in ascending buffer number. -/
def changeNotices (s : State) (change : BufNo → Capture → Option Capture) : List Instr :=
  (List.finRange 24).flatMap fun b =>
    match s.pool[b] with
    | some c => (change b c).elim [] (frameNotice b)
    | none => []

/-- The capture-released notices of every provisional capture, in ascending buffer number (R102, R103). -/
def provisionalReleases (s : State) : List Instr :=
  (List.finRange 24).filterMap fun b =>
    match s.pool[b] with
    | some c => if c.holder = .provisional then some (.captureReleased c.fault b c.episode) else none
    | none => none

/-- Of the samples `xs` that arrive, in their order, those that an OPEN capture takes: above its T, as many as it still
wants (R93). -/
def takenOf (c : Capture) (xs : List Sample) : List Sample :=
  (xs.filter fun x => decide (c.episode.time < x.time)).take (c.postWanted - c.postGot)

/-- A capture after the samples `xs` have arrived at ring `p`: an OPEN one of that ring has what it takes of them, and is
COMPLETE with the last one wanted; any other is as it was (R80, R93, R95). -/
def fedBy (p : Port) (c : Capture) (xs : List Sample) : Capture :=
  if c.state = .opened ∧ c.ring = p then
    let got := c.postGot + (takenOf c xs).length
    { c with postGot := got, state := if got = c.postWanted then .complete else .opened }
  else c

/-- The captures of `pool` have been offered the samples `xs` of ring `p`: each has what it takes of them, in the places
after its last post sample (R80, R93). -/
def Fed (t : State) (p : Port) (pool : Vector (Option Capture) 24) (xs : List Sample) : Prop :=
  (∀ b : BufNo, t.pool[b] = pool[b].map fun c => fedBy p c xs) ∧
  ∀ (b : BufNo) (c : Capture), pool[b] = some c → OpenOn p c → ∀ (j : Nat) (x : Sample), (takenOf c xs)[j]? = some x →
    t.srr.readRange (placeAddress b (c.preGot + c.postGot + j)) 8 = x.words

/-- What the arrival of the samples `xs` at ring `p` raises, sample by sample: the frame change notices of the captures of
`pool` that take it, in ascending buffer number, then the arrival at the supervisor (R80, R86). -/
def arrivalEvents (p : Port) (pool : Vector (Option Capture) 24) (xs : List Sample) : List Instr :=
  (List.range xs.length).flatMap fun i =>
    (List.finRange 24).flatMap (fun b =>
      match pool[b] with
      | some c =>
        if fedBy p c (xs.take (i + 1)) = fedBy p c (xs.take i) then [] else frameNotice b (fedBy p c (xs.take (i + 1)))
      | none => []) ++
    match xs[i]? with
    | some x => [.qualificationArrival p x.time (x.words.getD 1 0)]
    | none => []

/-- The report of a ring that an advance makes LIVE (R83). -/
def advanceReport (s : State) (p : Port) : List Instr :=
  if s.sup.mode = .ride ∧ (s.rings.get p).state ≠ .live then [.ringStateReport p .live] else []

/-- What a buffer holds at some point of the command that leaves it with `o'` and found it with `o`: `o` or `o'`; in
between, no capture, where a trigger frees the stale capture of its fault and takes the buffer again (R87); the capture
closed SHORT, where the ride-end event then frees it (R102); and the capture with GAP and some of the samples that arrive
with one head word (R79 to R82). -/
def OnTheWay (o o' x : Option Capture) : Prop :=
  x = o ∨ x = o' ∨
  (x = none ∧ ∃ c c', o = some c ∧ o' = some c' ∧ c.holder = .provisional ∧ c'.holder = .provisional) ∨
  (∃ c, o = some c ∧ o' = none ∧ c.state = .opened ∧ c.holder = .provisional ∧ x = some { c with state := .short }) ∨
  ∃ c c' k, o = some c ∧ o' = some c' ∧ c.state = .opened ∧ c.postGot ≤ k ∧ k ≤ c'.postGot ∧
    x = some { c' with postGot := k, state := .opened }

/-- How many samples the header of a buffer counts: none of a free one (R19). -/
def samplesCounted (o : Option Capture) : Nat := o.elim 0 fun c => c.preGot + c.postGot

/-- A sample place of buffer `b` reads the same in two memories (R19). -/
def SamePlace (m m' : Mem) (b : BufNo) (k : Nat) : Prop :=
  m.readRange (placeAddress b k) 8 = m'.readRange (placeAddress b k) 8

/-- With the header of buffer `b` showing `o` at some point of a command from `s` to `t`, every place that the header counts
holds its sample: the one that stands there after the command, or, while the header is still the one from before it, the one
from before it. In a takeover the newcomer's samples are copied under the victim's header, which is rewritten once, after them
(R19, R88; notes/assumptions/28.md): until then each word of such a place is the victim's or the newcomer's. -/
def SamplesInPlace (s t : State) (m : Mem) (b : BufNo) (o : Option Capture) : Prop :=
  ∀ k, k < samplesCounted o →
    SamePlace m t.srr b k ∨
    (o = s.pool[b] ∧
      (SamePlace m s.srr b k ∨
        ((∃ c c', o = some c ∧ t.pool[b] = some c' ∧ c.fault ≠ c'.fault) ∧
          ∀ a, placeAddress b k ≤ a → a < placeAddress b (k + 1) →
            m.read a = s.srr.read a ∨ m.read a = t.srr.read a)))

/-- An event that makes the slots `new` rewrites the index list: a slot is inserted or removed, a record takes another's
slot, or the sequence of slot numbers changes (R111, R113, R119; log entry 23). -/
def ListRewritten (s : State) (new : Vector (Option Record) 16) : Prop :=
  indexOf new ≠ s.index ∨ ∃ i : SlotNo, (s.slots[i].map fun r => r.fault) ≠ (new[i].map fun r => r.fault)

/-- What a change of event memory to `new` on account of a fault's event hands on, in order (R108): a dirty mark of each
slot whose view changed, STORE on both ports where the index list is rewritten, and the record lamp notices. -/
def handedOn (s : State) (account : Option FaultNo) (new : Vector (Option Record) 16) : List Instr :=
  ((List.finRange 16).filterMap fun i =>
    if recordWords s.slots[i] = recordWords new[i] then none else some (.dirtyMark (.slot i))) ++
  (if indexOf new = s.index ∧ (∀ i : SlotNo, (s.slots[i].map fun r => r.fault) = new[i].map fun r => r.fault) then []
    else [.latchRequest .e ⟨.store, account⟩, .latchRequest .a ⟨.store, account⟩]) ++
  (List.finRange 16).filterMap fun i =>
    if lampsConcerned s.slots[i] new[i] = .none then none
    else some (.recordLampNotice ⟨lampsConcerned s.slots[i] new[i], account⟩)

/-- The words that a rewrite of event memory's views may store. -/
def inEventViews (a : Nat) : Prop := inIndexView a ∨ ∃ i : SlotNo, recordView i ≤ a ∧ a ≤ recordView i + 10

/-- The views of event memory follow a change of it: the index list is that of the slots, each changed view is rewritten
once, the index list once where the change asks for it, and each unchanged view stands as it was (R108, R113, R119). -/
def EventViewsFollow (s t : State) : Prop :=
  t.index = indexOf t.slots ∧
  (∀ i : SlotNo,
    (recordWords s.slots[i] = recordWords t.slots[i] → ∀ a, inRecordView i a → t.srr.read a = s.srr.read a) ∧
    (recordWords s.slots[i] ≠ recordWords t.slots[i] → RecordRewritten s t i)) ∧
  (¬ ListRewritten s t.slots → ∀ a, inIndexView a → t.srr.read a = s.srr.read a) ∧
  (ListRewritten s t.slots → IndexRewritten s t)

/-- The events of a removal of record `r` from slot `i` on account of a fault's event (R64, R116). -/
def removals (account : Option FaultNo) (i : SlotNo) (r : Record) : List Instr :=
  (if r.frame ≠ none ∨ r.awaited ≠ none then [.bufferFree i ⟨r.frame, account⟩] else []) ++ [.slotNotice r.fault none none]

/-- The completion of port `p`'s request with a status and three result words: they are stored, and DONE or REFUSED; an
orphaned request ends without any of it (R190, R193). -/
def Completed (s t : State) (p : Port) (status r0 r1 r2 : Word) : Prop :=
  (s.handler.orphan.get p = false →
    t.srr.read (aStatus p) = status ∧ t.srr.read (aResult p 0) = r0 ∧ t.srr.read (aResult p 1) = r1 ∧
    t.srr.read (aResult p 2) = r2 ∧ t.srr.read (aRequest p) = if status = 0 then 3 else 4) ∧
  (s.handler.orphan.get p = true →
    ∀ a ∈ [aRequest p, aStatus p, aResult p 0, aResult p 1, aResult p 2], t.srr.read a = s.srr.read a)

/-- The words a completion stores. -/
def requestWord (p : Port) (a : Nat) : Prop :=
  a ∈ [aRequest p, aStatus p, aResult p 0, aResult p 1, aResult p 2]

/-- What a completion raises: REQDONE, or, of an orphaned request, the take of the request that waits (R190, R193). -/
def completionEvents (s : State) (p : Port) : List Instr :=
  if s.handler.orphan.get p then if s.srr.read (aRequest p) = 1 then [.waitingRequestTake p] else []
  else [.latchRequest p ⟨.reqdone, none⟩]

/-- A part of step 4 of a START RIDE has ended with command `c`, which raises `raised` besides: `left` has struck it off the
parts that have not ended, and where it was the last of them START_RIDE is raised, for step 5; where no START RIDE runs, or the
part had ended before, the handler stands as it was (R145). -/
def PartEnded (c : Instr) (s t : State) (raised : List Instr) (left : StartRun → StartRun) : Prop :=
  t.handler = { s.handler with start := s.handler.start.map left } ∧
  Raises c s t (raised ++ match s.handler.start with
    | some r => if left r ≠ r ∧ (left r).rings = false ∧ (left r).lamps = false then [.startRide] else []
    | none => [])

/-- The owner refuses the request with that status: it completes with result words 0, and nothing else changes (R189,
R190). -/
def Refuses (c : Instr) (p : Port) (s : State) (status : Word) : Prop :=
  ∃ t, exec c s = .next t ∧
    t = { s with inFlight := t.inFlight, stores := t.stores, srr := t.srr,
                 handler := { s.handler with orphan := s.handler.orphan.set p false } } ∧
    Completed s t p status 0 0 0 ∧ SrrOnly s t (requestWord p) ∧ Raises c s t (completionEvents s p)

/-- A state between two stores of a command: the SRR with the first of its stores made (R1, R14). -/
def Between (s t : State) (m : Mem) : Prop := ∃ later, ∃ made, t.stores = made ++ later ∧ m = s.srr.writeAll made

/-- The command leaves the part as it was, but that it has been taken. -/
def ChangesNothing (c : Instr) (s : State) : Prop := exec c s = .next (s.begin c)

/-- The words of the SRR that a port may ever store: the areas of R5 that are its own, whatever the mode. -/
def portWritable (p : Port) (a : Nat) : Prop :=
  a = aRequest p ∨ a = aCode p ∨ a = aArg0 p ∨ a = aArg1 p ∨ a = aEnable p ∨ a = aPolarity p ∨ a = aOrder p ∨
  a = aTop p ∨ a = aEmptyLevel p ∨ a = aFullLevel p ∨ a = aHead p ∨ a = aQueueMask p ∨ a = aRingMask p ∨
  (p = .e ∧ 0x0400 ≤ a ∧ a < 0x0800) ∨ (queueBase p ≤ a ∧ a < queueBase p + 2048) ∨
  (ringBase p ≤ a ∧ a < ringBase p + 512)

end Sys2Proof.Machine

/-! ### The order of events (R12, R64, R70, R71, R77, R98 to R102, R106, R121, R138, R149) -/

namespace Sys2Proof

/-- The block at which a command is an event; commands from outside the part are at none. -/
inductive Block
  | intake | qualifier | capture | manager | supervisor | lamps | store | attention | handler | outside
  deriving DecidableEq, Repr

/-- Events that are taken in the order in which they were sent: one port's at one block (R12, R196), the manager's
directions and frees at the Frame Capture Unit (R77), that unit's notices at the manager (R106) and at the qualifier
(R70), the manager's notices at the qualifier (R71), and the arrivals of one ring (R138) with its state reports and the
edges of RIDE, each among themselves. -/
inductive Channel
  | port (p : Port) (b : Block) | directions | frameNotices | captureNotices | slotNotices
  | arrivals (p : Port) | ringStates (p : Port) | edges
  deriving DecidableEq, Repr

def Instr.block : Instr → Block
  | .read _ _ _ => .outside
  | .write _ _ _ => .outside
  | .swap _ _ => .outside
  | .status _ _ _ => .outside
  | .restart _ _ => .outside
  | .badCommand _ _ _ => .outside
  | .topTaken _ _ => .intake
  | .levelReEvaluation _ _ => .intake
  | .recordTake _ => .outside
  | .queueDrained _ => .supervisor
  | .intakeRestart _ => .intake
  | .headWritten _ _ => .capture
  | .qualificationArrival _ _ _ => .supervisor
  | .ringStateReport _ _ => .supervisor
  | .stallTimerExpiry _ => .capture
  | .fcuModeNotice _ => .capture
  | .ringRestart _ => .capture
  | .trigger _ _ _ _ _ _ => .capture
  | .deadlineExpiry _ => .capture
  | .confirmNotice _ _ => .capture
  | .episodeClose _ _ => .capture
  | .entryResetDiscard _ _ => .capture
  | .attachDirection _ _ _ => .capture
  | .discardDirection _ _ => .capture
  | .bufferFree _ _ => .capture
  | .captureUnitClear _ => .capture
  | .fcuRideEndEvent => .capture
  | .captureOpened _ _ _ => .qualifier
  | .captureLost _ _ => .qualifier
  | .captureReleased _ _ _ => .qualifier
  | .slotNotice _ _ _ => .qualifier
  | .qualifierClear _ => .qualifier
  | .suspectCount => .qualifier
  | .confirmEvent _ _ _ _ _ _ _ => .manager
  | .heal _ => .manager
  | .frameChangeNotice _ _ _ _ _ _ _ => .manager
  | .noFrameNotice _ _ _ => .manager
  | .clearEvent _ => .manager
  | .managerRideEndEvent _ => .manager
  | .takeDefinitions => .supervisor
  | .returnToConfig => .supervisor
  | .startRide => .supervisor
  | .endRide => .supervisor
  | .poolSettled => .supervisor
  | .closingComplete => .supervisor
  | .clearFaults _ => .manager
  | .absReady => .supervisor
  | .requestPosted _ => .handler
  | .requestReleased _ => .handler
  | .waitingRequestTake _ => .handler
  | .requestRestart _ => .handler
  | .latchRequest _ _ => .attention
  | .maskChange _ _ _ => .attention
  | .acknowledgement _ _ => .attention
  | .attentionRestart _ => .attention
  | .rideClockTick => .outside
  | .bulbCheckExpiry => .supervisor
  | .flashTick => .lamps
  | .demandNotice _ => .lamps
  | .recordLampNotice _ => .lamps
  | .modeNotice => .lamps
  | .bulbCheckExpiryNotice => .lamps
  | .absReadyChangeNotice => .lamps
  | .rideStartStep => .lamps
  | .overcurrentDetection _ => .outside
  | .dirtyMark _ => .store
  | .writeStart => .outside
  | .writeCompletion => .outside
  | .supplyLowChange _ => .outside
  | .resetHold => .outside
  | .partReset => .outside
  | .loadComplete => .supervisor
  | .takeDefinitionsBuildDone => .supervisor
  | .chipSelectRise _ => .outside

def Instr.channel : Instr → Option Channel
  | .read _ _ _ => none
  | .write _ _ _ => none
  | .swap _ _ => none
  | .status _ _ _ => none
  | .restart _ _ => none
  | .badCommand _ _ _ => none
  | .topTaken port _ => some (.port port .intake)
  | .levelReEvaluation port _ => some (.port port .intake)
  | .recordTake _ => none
  | .queueDrained _ => none
  | .intakeRestart port => some (.port port .intake)
  | .headWritten port _ => some (.port port .capture)
  | .qualificationArrival ring _ _ => some (.arrivals ring)
  | .ringStateReport ring _ => some (.ringStates ring)
  | .stallTimerExpiry _ => none
  | .fcuModeNotice _ => some .edges
  | .ringRestart port => some (.port port .capture)
  | .trigger _ _ _ _ _ _ => none
  | .deadlineExpiry _ => none
  | .confirmNotice _ _ => none
  | .episodeClose _ _ => none
  | .entryResetDiscard _ _ => none
  | .attachDirection _ _ _ => some .directions
  | .discardDirection _ _ => some .directions
  | .bufferFree _ _ => some .directions
  | .captureUnitClear _ => none
  | .fcuRideEndEvent => none
  | .captureOpened _ _ _ => some .captureNotices
  | .captureLost _ _ => some .captureNotices
  | .captureReleased _ _ _ => some .captureNotices
  | .slotNotice _ _ _ => some .slotNotices
  | .qualifierClear _ => none
  | .suspectCount => none
  | .confirmEvent _ _ _ _ _ _ _ => none
  | .heal _ => none
  | .frameChangeNotice _ _ _ _ _ _ _ => some .frameNotices
  | .noFrameNotice _ _ _ => some .frameNotices
  | .clearEvent _ => none
  | .managerRideEndEvent _ => none
  | .takeDefinitions => none
  | .returnToConfig => none
  | .startRide => none
  | .endRide => none
  | .poolSettled => none
  | .closingComplete => none
  | .clearFaults _ => none
  | .absReady => none
  | .requestPosted port => some (.port port .handler)
  | .requestReleased port => some (.port port .handler)
  | .waitingRequestTake _ => none
  | .requestRestart port => some (.port port .handler)
  | .latchRequest port ⟨cause, _⟩ => if cause = .access then some (.port port .attention) else none
  | .maskChange port _ _ => some (.port port .attention)
  | .acknowledgement port _ => some (.port port .attention)
  | .attentionRestart port => some (.port port .attention)
  | .rideClockTick => none
  | .bulbCheckExpiry => none
  | .flashTick => none
  | .demandNotice _ => none
  | .recordLampNotice _ => none
  | .modeNotice => none
  | .bulbCheckExpiryNotice => none
  | .absReadyChangeNotice => none
  | .rideStartStep => none
  | .overcurrentDetection _ => none
  | .dirtyMark _ => none
  | .writeStart => none
  | .writeCompletion => none
  | .supplyLowChange _ => none
  | .resetHold => none
  | .partReset => none
  | .loadComplete => none
  | .takeDefinitionsBuildDone => none
  | .chipSelectRise _ => none

/-- The fault of an event that the Fault Qualifier raises (R64, R66 to R69, R72, R126). -/
def Instr.byQualifier : Instr → Option FaultNo
  | .read _ _ _ => none
  | .write _ _ _ => none
  | .swap _ _ => none
  | .status _ _ _ => none
  | .restart _ _ => none
  | .badCommand _ _ _ => none
  | .topTaken _ _ => none
  | .levelReEvaluation _ _ => none
  | .recordTake _ => none
  | .queueDrained _ => none
  | .intakeRestart _ => none
  | .headWritten _ _ => none
  | .qualificationArrival _ _ _ => none
  | .ringStateReport _ _ => none
  | .stallTimerExpiry _ => none
  | .fcuModeNotice _ => none
  | .ringRestart _ => none
  | .trigger fault _ _ _ _ _ => some fault
  | .deadlineExpiry _ => none
  | .confirmNotice fault _ => some fault
  | .episodeClose fault _ => some fault
  | .entryResetDiscard fault _ => some fault
  | .attachDirection _ _ _ => none
  | .discardDirection _ _ => none
  | .bufferFree _ _ => none
  | .captureUnitClear fault => some fault
  | .fcuRideEndEvent => none
  | .captureOpened _ _ _ => none
  | .captureLost _ _ => none
  | .captureReleased _ _ _ => none
  | .slotNotice _ _ _ => none
  | .qualifierClear _ => none
  | .suspectCount => none
  | .confirmEvent fault _ _ _ _ _ _ => some fault
  | .heal fault => some fault
  | .frameChangeNotice _ _ _ _ _ _ _ => none
  | .noFrameNotice _ _ _ => none
  | .clearEvent fault => some fault
  | .managerRideEndEvent _ => none
  | .takeDefinitions => none
  | .returnToConfig => none
  | .startRide => none
  | .endRide => none
  | .poolSettled => none
  | .closingComplete => none
  | .clearFaults _ => none
  | .absReady => none
  | .requestPosted _ => none
  | .requestReleased _ => none
  | .waitingRequestTake _ => none
  | .requestRestart _ => none
  | .latchRequest _ ⟨cause, account⟩ => if cause = .confirm then account else none
  | .maskChange _ _ _ => none
  | .acknowledgement _ _ => none
  | .attentionRestart _ => none
  | .rideClockTick => none
  | .bulbCheckExpiry => none
  | .flashTick => none
  | .demandNotice fault => some fault
  | .recordLampNotice _ => none
  | .modeNotice => none
  | .bulbCheckExpiryNotice => none
  | .absReadyChangeNotice => none
  | .rideStartStep => none
  | .overcurrentDetection _ => none
  | .dirtyMark _ => none
  | .writeStart => none
  | .writeCompletion => none
  | .supplyLowChange _ => none
  | .resetHold => none
  | .partReset => none
  | .loadComplete => none
  | .takeDefinitionsBuildDone => none
  | .chipSelectRise _ => none

/-- The fault of an event on whose account the manager raised this one at a third block: its directions and buffer frees at
the Frame Capture Unit (R98 to R100, R116), its record lamp notices at the Lamp Driver and STORE at the Attention Unit
(R108), on account of a confirm, a heal or a clear event (R64, R77). -/
def Instr.onAccount : Instr → Option FaultNo
  | .read _ _ _ => none
  | .write _ _ _ => none
  | .swap _ _ => none
  | .status _ _ _ => none
  | .restart _ _ => none
  | .badCommand _ _ _ => none
  | .topTaken _ _ => none
  | .levelReEvaluation _ _ => none
  | .recordTake _ => none
  | .queueDrained _ => none
  | .intakeRestart _ => none
  | .headWritten _ _ => none
  | .qualificationArrival _ _ _ => none
  | .ringStateReport _ _ => none
  | .stallTimerExpiry _ => none
  | .fcuModeNotice _ => none
  | .ringRestart _ => none
  | .trigger _ _ _ _ _ _ => none
  | .deadlineExpiry _ => none
  | .confirmNotice _ _ => none
  | .episodeClose _ _ => none
  | .entryResetDiscard _ _ => none
  | .attachDirection fault _ _ => some fault
  | .discardDirection fault _ => some fault
  | .bufferFree _ ⟨_, account⟩ => account
  | .captureUnitClear _ => none
  | .fcuRideEndEvent => none
  | .captureOpened _ _ _ => none
  | .captureLost _ _ => none
  | .captureReleased _ _ _ => none
  | .slotNotice _ _ _ => none
  | .qualifierClear _ => none
  | .suspectCount => none
  | .confirmEvent _ _ _ _ _ _ _ => none
  | .heal _ => none
  | .frameChangeNotice _ _ _ _ _ _ _ => none
  | .noFrameNotice _ _ _ => none
  | .clearEvent _ => none
  | .managerRideEndEvent _ => none
  | .takeDefinitions => none
  | .returnToConfig => none
  | .startRide => none
  | .endRide => none
  | .poolSettled => none
  | .closingComplete => none
  | .clearFaults _ => none
  | .absReady => none
  | .requestPosted _ => none
  | .requestReleased _ => none
  | .waitingRequestTake _ => none
  | .requestRestart _ => none
  | .latchRequest _ ⟨cause, account⟩ => if cause = .store then account else none
  | .maskChange _ _ _ => none
  | .acknowledgement _ _ => none
  | .attentionRestart _ => none
  | .rideClockTick => none
  | .bulbCheckExpiry => none
  | .flashTick => none
  | .demandNotice _ => none
  | .recordLampNotice ⟨_, account⟩ => account
  | .modeNotice => none
  | .bulbCheckExpiryNotice => none
  | .absReadyChangeNotice => none
  | .rideStartStep => none
  | .overcurrentDetection _ => none
  | .dirtyMark _ => none
  | .writeStart => none
  | .writeCompletion => none
  | .supplyLowChange _ => none
  | .resetHold => none
  | .partReset => none
  | .loadComplete => none
  | .takeDefinitionsBuildDone => none
  | .chipSelectRise _ => none

/-- Two events name the same thing. -/
def sameSome {α : Type} [DecidableEq α] (x y : Option α) : Bool := x.isSome && decide (x = y)

/-- A later event that its block takes after every earlier one of a kind: the ride-end events after the events of the
qualifier (R102, R121), the SUSPECT count after the capture-released notices (R149), the end of TAKE DEFINITIONS after
the slot notices of its reconnection (R26, R27). -/
def waitsFor (c d : Instr) : Bool :=
  match d with
  | .fcuRideEndEvent => decide (c.block = .capture) && c.byQualifier.isSome
  | .managerRideEndEvent _ => decide (c.block = .manager) && c.byQualifier.isSome
  | .suspectCount => decide (c.channel = some .captureNotices)
  | .takeDefinitionsBuildDone => decide (c.channel = some .slotNotices)
  | _ => false

/-- Of two events in flight, the one raised earlier, `c`, must be taken first. An event that the manager raises on account
of a fault's event comes after every event of the qualifier for that fault at the same block that was raised before it
(R64, R77). The rules say "raised earlier" without saying than what; that earlier than the manager's event counts, and not
earlier than the qualifier event on whose account it is raised, so that a direction waits for what the qualifier has
raised since its confirm too, is a DESIGN CHOICE (notes/assumptions/21.md). -/
def mustPrecede (c d : Instr) : Bool :=
  sameSome c.channel d.channel ||
    (decide (c.block = d.block) &&
      (sameSome c.byQualifier d.byQualifier || sameSome c.byQualifier d.onAccount)) || waitsFor c d

end Sys2Proof

namespace Sys2Proof.Machine

/-- The port whose request the handler has dispatched with an event that its owner has not taken (R189). A
TAKE_DEFINITIONS that goes on with a build in progress is dispatched no more. -/
def State.dispatched (s : State) : Instr → Option Port
  | .takeDefinitions => if s.handler.building.isSome then none else some .e
  | .returnToConfig => some .e
  | .startRide => some .e
  | .endRide => some .e
  | .clearFaults _ => some .e
  | .absReady => some .a
  | _ => none

/-- The take of a request and what its owner does as it takes it, a refusal or a completion within the take among it, are
one event of the handler, so that the restart event of the port falls before or after both; that of a START RIDE reaches
over the events of step 4 to its completion (R190, R193; DEDUCED, notes/assumptions/8.md). -/
def State.withinTake (s : State) (c : Instr) : Bool :=
  match c with
  | .requestRestart p =>
    (s.inFlight.any fun d => decide (s.dispatched d = some p)) || (decide (p = .e) && s.handler.start.isSome)
  | _ => false

/-- Step 5 of a START RIDE with the report that a ring has become LIVE still to be taken by the supervisor, which ends step 4
(R145). -/
def State.beforeStepFive (s : State) (c : Instr) : Bool :=
  decide (c = .startRide) && s.handler.start.isSome &&
    s.inFlight.any fun d => decide (d = .ringStateReport .e .live) || decide (d = .ringStateReport .a .live)

/-- A command may be taken now: it comes from outside the part, or it is in flight, nothing that must precede it was
raised before it, it does not fall within the take of a request, and it is no step 5 that comes before the end of step 4.
A RECORD_TAKE comes from outside and waits for no block (R64), so it may fall between the QUALIFIER_CLEAR of its fault and
the CLEAR_EVENT, where R128 has the record "erased before the report is applied": only the confirm of that report waits
for the clear event. This is a DESIGN CHOICE (notes/assumptions/34.md). -/
def State.mayTake (s : State) (c : Instr) : Bool :=
  decide (c.block = .outside) ||
    (decide (c ∈ s.inFlight) && (s.inFlight.takeWhile fun d => decide (d ≠ c)).all (fun d => !mustPrecede d c) &&
      !s.withinTake c && !s.beforeStepFive c)

/-- A safe step: the command at the front is well formed and may be taken, and the part goes on to a next state. -/
def SafeStep (s t : State) : Prop :=
  match s.pending with
  | [] => t = s
  | c :: _ => c.wellFormed = true ∧ s.mayTake c = true ∧ step s = .next t

/-- A safe run of any length. -/
inductive SafeRun : State → State → Prop
  | start (s : State) : SafeRun s s
  | next {s t u : State} : SafeRun s t → SafeStep t u → SafeRun s u

end Sys2Proof.Machine
end

