-- ==== Sys2Proof/Certificates/Slice0/Obligations.lean ====
section
/-! DEFINITION. The statements about the KF740 that are put to the provers, family by family. A statement that a
command completes has as its conclusion that `exec` answers a next state, and it says what that state is: the fields
named in `t = { s with … }` may change, and every other field is unchanged. -/

open Sys2Proof Sys2Proof.Machine

/-! ### The queue of commands, and the part as a whole -/

/-- Commands run in the order in which they wait: a step takes the command at the front and runs it on the state with the
rest of the queue; with no command the part idles (the model's choice, log entry 1). -/
def Obligations.StepRunsTheFrontCommand : Prop :=
  (∀ (c : Instr) (rest : List Instr) (s : State), s.pending = c :: rest → step s = exec c { s with pending := rest }) ∧
  (∀ s : State, s.pending = [] → step s = .next s)

/-- The part as a part reset leaves it meets every invariant stated below. -/
def Obligations.ResetMeetsEveryInvariant : Prop :=
  State.reset.MemoryWf ∧ State.reset.QueuesWf ∧ State.reset.FaultsWf ∧ State.reset.EventMemoryWf ∧
  State.reset.ViewsFaithful ∧ State.reset.ControlAreaWf ∧ State.reset.DirtyWf ∧ State.reset.LockWf ∧
  State.reset.EnablesFollow ∧ State.reset.TimersWf

/-- Every step keeps the memories canonical and within their sizes, the words without storage 0 (the unassigned ones, the
acknowledge words, and words 11 to 31 of a record view), and the counts of every capture in their ranges (R1 to R4, R8,
R18, R85, R152, R153). -/
def Obligations.StepKeepsMemoriesCanonical : Prop :=
  ∀ s t : State, s.MemoryWf → step s = .next t → t.MemoryWf

/-- Every step keeps the queues and ring trackers in the ranges of R30 and R78, a stall timer, which runs only while its
ring is LIVE, in 0..50 among them; the dirty set a set with the image in flight in it (R155); and the lock of the fault
definition table and the mask words inside CONFIG (R5, R23, R28). -/
def Obligations.StepKeepsQueuesDirtySetAndLock : Prop :=
  (∀ s t : State, s.QueuesWf → step s = .next t → t.QueuesWf) ∧
  (∀ s t : State, s.DirtyWf → step s = .next t → t.DirtyWf) ∧
  (∀ s t : State, s.LockWf → step s = .next t → t.LockWf) ∧
  (∀ s t : State, s.TimersWf → step s = .next t → t.TimersWf)

/-- Every step keeps the fault table: an UNDEFINED fault has every field but its episode number at its value after part
reset; the accumulator of a defined one stands where its state has it (0 in UNTESTED, above H and below 0 in PASSING, H in
PASSED, between H and C in SUSPECT and RECOVERING, C in CONFIRMED); a trigger time stands exactly while an episode is open,
and a capture reference only in SUSPECT (R50, R57, R59 to R62, R68, R72). -/
def Obligations.StepKeepsFaultTable : Prop :=
  ∀ s t : State, s.FaultsWf → step s = .next t → t.FaultsWf

/-- Every step keeps event memory: the ranges of each record, one record for a fault, and the index list of the slots in
use in order (R105, R107, R117, R119, R124). -/
def Obligations.StepKeepsEventMemory : Prop :=
  ∀ s t : State, s.FaultsWf → s.EventMemoryWf → step s = .next t → t.EventMemoryWf

/-- After every step every view shows the state it mirrors with an even change counter, and the control area and the words
of the queues and of the rings show the state (R2, R4, R14, R17 to R19, R52, R83, R129, R134, R136, R155, R168,
R169). -/
def Obligations.StepKeepsViewsAndMirrors : Prop :=
  (∀ s t : State, s.CapturesWf → s.ViewsFaithful → step s = .next t → t.ViewsFaithful) ∧
  (∀ s t : State, s.ControlAreaWf → step s = .next t → t.ControlAreaWf)

/-- The mode changes as the table of R129 has it and in no other way; no command but START_RIDE and a part reset changes
the ride number, START_RIDE does not lower it, and no command but its tick and a part reset changes the ride clock (R134,
R136). In every state the hold of a reset keeps the mode and the release begins START-UP (R130, R131); the end of the
load, there, enters CONFIG (R129, R132). -/
def Obligations.ModeNumberAndClockChangeByTheirEvents : Prop :=
  (∀ (c : Instr) (s t : State), exec c s = .next t →
    t.sup.mode = s.sup.mode ∨ modeChange c s.sup.mode t.sup.mode = true) ∧
  (∀ (c : Instr) (s t : State), c ≠ .partReset → exec c s = .next t →
    s.sup.rideNumber ≤ t.sup.rideNumber ∧ (c ≠ .startRide → t.sup.rideNumber = s.sup.rideNumber) ∧
    (c ≠ .rideClockTick → t.sup.rideClock = s.sup.rideClock)) ∧
  ∀ s : State,
    (∃ t, exec .resetHold s = .next t ∧ t.held = true ∧ t.sup.mode = s.sup.mode) ∧
    (∃ t, exec .partReset s = .next t ∧ t.held = false ∧ t.sup.mode = .startUp) ∧
    (s.held = false → s.sup.mode = .startUp →
      ∃ t, exec .loadComplete s = .next t ∧ t.held = false ∧ t.sup.mode = .config)

/-- A part held in reset takes nothing: but for the release, the levels of its pins and the events that are dropped, a
command leaves the whole part as it was (R130, R194). It takes no bit of either port and drives nothing on SDO: a
transaction that begins in the hold stands abandoned, with no byte shifted out, and the other port's stands as it was.
That a part follows its pins meanwhile, the rise of a chip select, the one a RESTART contains and the level of SUPPLY-LOW,
is the model's choice (log entry 15). In START-UP no event of the intake, the qualifier, the capture unit or the handler
is taken, no record is taken and no write starts (R131, R156); that an event of the manager, of the store or of the
supervisor, but for the end of the load and an expiry of the bulb check, and a completion of a write, of which none can be
in flight, are not taken either is the model's choice (log entry 20). The events of the Lamp Driver and of the Attention
Unit are taken in START-UP, and have their effects in their own statements. -/
def Obligations.HoldAndStartUpKeepEventsOut : Prop :=
  ∀ (c : Instr) (s : State),
    (s.held = true → c ≠ .partReset →
      ∃ t, exec c s = .next t ∧
        t = { s with
              inFlight := s.inFlight.erase c, stores := [], ports := t.ports,
              store := { s.store with supplyLow := t.store.supplyLow } } ∧
        (∀ level, c = .supplyLowChange level → t.store.supplyLow = level) ∧
        ((∀ level, c ≠ .supplyLowChange level) → t.store.supplyLow = s.store.supplyLow) ∧
        ∀ p : Port,
          let begins := (∃ x n, c = .read p x n ∧ x ≠ .continues) ∨ (∃ x ws, c = .write p x ws ∧ x ≠ .continues) ∨
            (∃ x, c = .swap p x) ∨ (∃ n, c = .status p true n) ∨ ∃ x n, c = .badCommand p x n
          (begins → t.ports.get p = { s.ports.get p with link := .abandoned, sdo := [] }) ∧
          ((∃ k, c = .restart p k) → t.ports.get p = { s.ports.get p with link := .deselected, sdo := [] }) ∧
          (c = .chipSelectRise p → t.ports.get p = { s.ports.get p with link := .deselected }) ∧
          (¬ begins → (∀ k, c ≠ .restart p k) → c ≠ .chipSelectRise p → t.ports.get p = s.ports.get p)) ∧
    (s.held = false → s.sup.mode = .startUp →
      c.block ∈ [.intake, .qualifier, .capture, .manager, .handler, .store] ∨
        c ∈ [.recordTake .e, .recordTake .a, .writeStart, .writeCompletion] ∨
        (c.block = .supervisor ∧ c ≠ .loadComplete ∧ c ≠ .bulbCheckExpiry) →
      ChangesNothing c s)

/-- The words of an area read as they did before the command, or as they do after it. -/
def OldOrNew (s t : State) (m : Mem) (area : Nat → Prop) : Prop :=
  (∀ a, area a → m.read a = s.srr.read a) ∨ ∀ a, area a → m.read a = t.srr.read a

/-- The stores of a command are made one by one, and a port may read between any two of them. Wherever the change counter
of a view is even, the view is whole: that of the state before or after, and in a frame header, which one command may
rewrite several times, that of a capture, or of none, on the buffer's way through the command (R14, R17 to R19). Every
sample is in its place before the header that counts it: wherever the counter of a header is even, the places that it
counts hold their samples, but for a victim's, over which a takeover copies the newcomer's before it rewrites the header,
once (R19, R88; that the victim's header stands meanwhile is the model's reading, log entry 28). The stores with which a
load shows what it has placed come in the same order (R14, R18, R19, R166). A take stores the bottom before the occupancy,
and both after a reject's detail, whose reason comes last before the latched set and its top cause; an overrun stores the
bottom before the occupancy (R33, R34, R36, R48, R182). A completion stores its status and result words, then the state
word, after all else (R190); that the status and the three result words, which one step of R190 names together, come in
the order in which it names them is the model's reading (log entry 28). -/
def Obligations.StoresComeInTheirOrder : Prop :=
  (∀ (c : Instr) (s t : State), exec c s = .next t →
    t.srr = Mem.writeAll (if c = .partReset then [] else s.srr) t.stores) ∧
  (∀ (c : Instr) (s t : State) (m : Mem), c ≠ .partReset → s.ViewsFaithful → s.CapturesWf → exec c s = .next t →
    Between s t m →
    (∀ f : FaultNo, bits (m.read (faultView f + 3)) 10 6 % 2 = 0 → OldOrNew s t m (inFaultView f)) ∧
    (∀ i : SlotNo, bit (m.read (recordView i + 10)) 0 = false → OldOrNew s t m (inRecordView i)) ∧
    (bit (m.read (indexView + 1)) 0 = false → OldOrNew s t m inIndexView) ∧
    ∀ b : BufNo, bit (m.read (bufferBase b + 7)) 0 = false →
      ∃ o, OnTheWay s.pool[b] t.pool[b] o ∧ m.readRange (bufferBase b) 7 = headerWords o ∧ SamplesInPlace s t m b o) ∧
  (∀ (s t : State) (made later : List (Nat × Word)), exec .partReset s = .next t → t.stores = made ++ later →
    let m := Mem.writeAll [] made
    (∀ i : SlotNo, bit (m.read (recordView i + 10)) 0 = false →
      (∀ a, inRecordView i a → m.read a = 0) ∨ ∀ a, inRecordView i a → m.read a = t.srr.read a) ∧
    (bit (m.read (indexView + 1)) 0 = false →
      (∀ a, inIndexView a → m.read a = 0) ∨ ∀ a, inIndexView a → m.read a = t.srr.read a) ∧
    ∀ b : BufNo, bit (m.read (bufferBase b + 7)) 0 = false →
      (∀ a, inHeader b a → m.read a = 0) ∨
      ((∀ a, inHeader b a → m.read a = t.srr.read a) ∧ ∀ k, k < samplesCounted t.pool[b] → SamePlace m t.srr b k)) ∧
  (∀ (s t : State) (p : Port), s.Running → exec (.recordTake p) s = .next t → (s.queues.get p).occupancy ≠ 0 →
    let q := s.queues.get p
    let r := readReport s.srr (recordAddress p q.capacity q.bottom)
    ∃ front, t.stores = front ++ [(aBottom p, q.bottom + 1), (aOccupancy p, BitVec.ofNat 16 (q.occupancy - 1))] ∧
      ∀ reason, s.validate p r = .reject reason →
        ((s.srr.read (aLatched p)).getLsbD 2 = true → front = []) ∧
        ((s.srr.read (aLatched p)).getLsbD 2 = false → ∃ attention,
          front = [(aRejectFault p, BitVec.ofNat 16 r.fault), (aRejectIndex p, q.bottom),
            (aRejectReason p, BitVec.ofNat 16 reason)] ++ attention ∧
          attention.map Prod.fst ∈ [[], [aLatched p], [aLatched p, aTopCause p]])) ∧
  (∀ (s t : State) (p : Port) (top : Word), s.Running → exec (.topTaken p top) s = .next t →
    let q := s.queues.get p
    q.capacity < (top - q.bottom).toNat →
    t.stores = [(aBottom p, top - BitVec.ofNat 16 q.capacity), (aOccupancy p, BitVec.ofNat 16 q.capacity)]) ∧
  ∀ (c : Instr) (s t : State) (p : Port) (v : Word), exec c s = .next t → (aRequest p, v) ∈ t.stores →
    v = 3 ∨ v = 4 →
    ∃ front status r0 r1 r2,
      t.stores = front ++ [(aStatus p, status), (aResult p 0, r0), (aResult p 1, r1), (aResult p 2, r2),
        (aRequest p, v)] ∧ (v = 3 ↔ status = 0)

/-- A safe step takes an event that is in flight, the earliest of its kind, before which nothing stands that must precede
it, and leaves the others in their order with what it raises behind them: so of two events of which the earlier must
precede the later, the later is never taken first. What must precede what: the events of one port at one block (R12,
R196); those of the qualifier for one fault at one block, and of the manager at a third block those that it raises on
account of that fault (R64, R77); the manager's directions and frees (R77), the capture unit's notices (R70, R106), the
slot notices (R71), the arrivals of one ring (R138), each among themselves; and the ride-end events, the SUSPECT count and
the end of the build after what they wait for (R26, R102, R121, R149). The restart of a port does not fall between the
dispatch of its request and the owner's take, nor within a START RIDE, whose completion comes after the supervisor has
taken the reports that its rings are LIVE: that its take reaches so far is the model's reading (log entry 8) (R145, R190,
R193). In such a run the enable set that the Attention Unit holds follows its word (R181, R183). That a manager's event
waits for what the qualifier has raised since its confirm too is the model's choice (log entry 21), and so is that a
RECORD_TAKE, which comes from outside, waits for no clear event of its fault (log entry 34). -/
def Obligations.SafeStepsKeepTheOrder : Prop :=
  (∀ (s t : State) (d : Instr) (rest : List Instr), s.pending = d :: rest → SafeStep s t → d.block ≠ .outside →
    ∃ before after raised, s.inFlight = before ++ d :: after ∧ t.inFlight = before ++ after ++ raised ∧ d ∉ before ∧
      (∀ c ∈ before, mustPrecede c d = false) ∧
      (∀ p : Port, d = .requestRestart p →
        (∀ c ∈ s.inFlight, s.dispatched c ≠ some p) ∧ (p = .e → s.handler.start = none)) ∧
      (d = .startRide → s.handler.start ≠ none → ∀ p : Port, .ringStateReport p .live ∉ s.inFlight)) ∧
  (∀ (s t : State) (c d : Instr), SafeStep s t → mustPrecede c d = true → c ≠ d → [c, d].Sublist s.inFlight →
    s.pending.head? ≠ some c → s.pending.head? ≠ some .partReset → [c, d].Sublist t.inFlight) ∧
  (∀ s t : State, SafeRun s t → s.EnablesFollow → t.EnablesFollow) ∧
  let Ordered (cs ds : List Instr) : Prop := ∀ c ∈ cs, ∀ d ∈ ds, mustPrecede c d = true
  (∀ (p : Port) (v w : Word) (k l : MaskWord),
    Ordered [.topTaken p v, .levelReEvaluation p v, .intakeRestart p]
      [.topTaken p w, .levelReEvaluation p w, .intakeRestart p] ∧
    Ordered [.headWritten p v, .ringRestart p] [.headWritten p w, .ringRestart p] ∧
    Ordered [.requestPosted p, .requestReleased p, .requestRestart p]
      [.requestPosted p, .requestReleased p, .requestRestart p] ∧
    Ordered [.maskChange p k v, .acknowledgement p v, .latchRequest p ⟨.access, none⟩, .attentionRestart p]
      [.maskChange p l w, .acknowledgement p w, .latchRequest p ⟨.access, none⟩, .attentionRestart p] ∧
    ∀ (x y : Time) (u z : RingState),
      Ordered [.qualificationArrival p x v] [.qualificationArrival p y w] ∧
      Ordered [.ringStateReport p u] [.ringStateReport p z]) ∧
  (∀ (f g : FaultNo) (x y : EpisodeId) (i j : SlotNo) (b b' : BufNo) (o o' : Option BufNo) (k l : Option FaultNo)
      (st st' : CaptureState) (pre gap pre' gap' : Bool) (m n : Option SlotNo) (u v : Option Bool),
    Ordered [.attachDirection f x i, .discardDirection f x, .bufferFree i ⟨o, k⟩]
      [.attachDirection g y j, .discardDirection g y, .bufferFree j ⟨o', l⟩] ∧
    Ordered [.frameChangeNotice i b f x st pre gap, .noFrameNotice i f x]
      [.frameChangeNotice j b' g y st' pre' gap', .noFrameNotice j g y] ∧
    Ordered [.captureOpened f b x, .captureLost f ⟨x, o⟩, .captureReleased f b x]
      [.captureOpened g b' y, .captureLost g ⟨y, o'⟩, .captureReleased g b' y, .suspectCount] ∧
    Ordered [.slotNotice f m u] [.slotNotice g n v, .takeDefinitionsBuildDone]) ∧
  ∀ (f : FaultNo) (x y : EpisodeId) (ring ring' p q : Port) (pre post pr pre' post' pr' : BitVec 4) (b b' : BufNo)
      (i : SlotNo) (o : Option BufNo) (time time' : Time) (lamp lamp' field : LampField) (pat pat' : Pattern)
      (none' none'' qualifying : Bool),
    Ordered [.trigger f x ring pre post pr, .confirmNotice f x, .episodeClose f x, .entryResetDiscard f b,
        .captureUnitClear f]
      [.trigger f y ring' pre' post' pr', .confirmNotice f y, .episodeClose f y, .entryResetDiscard f b',
        .captureUnitClear f, .attachDirection f y i, .discardDirection f y, .bufferFree i ⟨o, some f⟩,
        .fcuRideEndEvent] ∧
    Ordered [.confirmEvent f x time pr lamp pat none', .heal f, .clearEvent f]
      [.confirmEvent f y time' pr' lamp' pat' none'', .heal f, .clearEvent f, .managerRideEndEvent qualifying] ∧
    Ordered [.demandNotice f] [.demandNotice f, .recordLampNotice ⟨field, some f⟩] ∧
    Ordered [.latchRequest p ⟨.confirm, some f⟩]
      [.latchRequest q ⟨.confirm, some f⟩, .latchRequest q ⟨.store, some f⟩]

/-! ### Ports (spec 01) -/

/-- A transaction that is spelt in bytes is read back as the command it spells, with every operand, and the rise of the
chip select after it; every transaction is read as commands the part can meet (R6 to R11). -/
def Obligations.TransactionsSpellTheirCommands : Prop :=
  (∀ (c : Instr) (p : Port) (bs : List Byte) (k : Nat), c.ofPort = some p → c.wellFormed = true →
    encodeTransaction c = some (bs, k) →
    decodeTransaction p bs k = match c with
      | .restart _ _ => [c]
      | _ => [c, .chipSelectRise p]) ∧
  (∀ (p : Port) (bs : List Byte) (k : Nat), ∀ c ∈ decodeTransaction p bs k, c.wellFormed = true ∧ c.ofPort = some p)

/-- The layout of what the part shows: the port status byte (R6), the words of a fault's view (R17), of a record's view and
of the index list (R18), of a frame header (R19), and of the control area those that hold more than one field, the writer
word 0x000A and the lamp words (R2). Each word is its fields at their bits, and its other bits read 0. -/
def Obligations.PublishedWordsHaveTheirLayout : Prop :=
  let one (b : Bool) : Nat := if b then 1 else 0
  let plusOne {n : Nat} (o : Option (Fin n)) : Nat := (o.map fun i => i.val + 1).getD 0
  (∀ (s : State) (p : Port), (s.statusByte p).toNat =
    (match s.sup.mode with | .startUp => 0 | .config => 1 | .idle => 2 | .ride => 3 | .closing => 4) +
      8 * one (decide (s.held = false) && decide (s.srr.read (aLatched p) ≠ 0)) +
      16 * one (decide (s.srr.read (aRequest p) = 1) || decide (s.srr.read (aRequest p) = 2)) +
      32 * one s.store.supplyLow + 64 * one s.store.damaged + 128 * one (s.ports.get p).badCommand) ∧
  (∀ e : FaultEntry, e.stateWord.toNat =
    (if e.defn = none then 0 else match e.phase with
      | .untested => 1 | .passing => 2 | .passed => 3 | .suspect => 4 | .confirmed => 5 | .recovering => 6) +
      16 * one e.tested + 32 * one e.confirmedRide + 64 * one e.captureLost + 128 * one e.unstored) ∧
  (∀ e : FaultEntry, -2000000 ≤ e.acc → e.acc ≤ 2000000 →
    ((lowWord e.accWord).toNat : Int) + 65536 * ((highWord e.accWord).toNat : Int) =
      if e.acc < 0 then e.acc + 4294967296 else e.acc) ∧
  (∀ (e : FaultEntry) (counter : Nat),
    (refsWord e.refs counter).toNat = plusOne e.capture + 32 * plusOne e.slot + 1024 * (counter % 64)) ∧
  (∀ r : Record, r.Wf → (recordWords (some r)).map BitVec.toNat =
    [(match r.state with | .active => 1 | .stored => 2) + 4 * one r.lampLatch +
        16 * (match r.frameStatus with | .none => 0 | .capturing => 1 | .complete => 2 | .short => 3 | .missed => 4) +
        128 * one r.preShort + 256 * one r.gap,
      r.fault.val + 256 * r.priority.toNat +
        4096 * (match r.lamp with | .none => 0 | .engine => 1 | .abs => 2 | .both => 3) +
        16384 * (match r.pattern with | .steady => 0 | .slow => 1),
      r.occurrence + 256 * r.age, r.clean + 256 * plusOne r.frame, r.firstRide.toNat, r.lastRide.toNat,
      r.firstFail.toNat % 65536, r.firstFail.toNat / 65536, r.lastConfirm.toNat % 65536, r.lastConfirm.toNat / 65536]) ∧
  (∀ c : Capture, c.Wf → (headerWords (some c)).map BitVec.toNat =
    [c.fault.val + 256 * (match c.holder with | .record _ => 2 | _ => 1) + 1024 * (match c.ring with | .e => 0 | .a => 1),
      c.episode.time.toNat % 65536, c.episode.time.toNat / 65536,
      c.preWanted + 16 * c.preGot + 256 * c.postWanted + 4096 * c.postGot,
      (match c.state with | .opened => 0 | .complete => 1 | .short => 3) + 4 * one c.preShort + 8 * one c.gap, 0, 0]) ∧
  (∀ l : LampState, l.word.toNat =
    (match l.demand with | .off => 0 | .slow => 1 | .steady => 2 | .fast => 3) + 4 * one l.output + 8 * one l.short) ∧
  (∀ x : Store, x.writerWord.toNat = one (decide (x.writing ≠ none)) + 2 * one x.damaged) ∧
  (∀ l : List SlotNo, l.length ≤ 16 →
    (indexWords l).map BitVec.toNat = l.map Fin.val ++ List.replicate (30 - l.length) 0)

/-- The layout of what the part takes in: a report record (R15), a context sample's place and words (R4, R78), an entry of
the fault definition table with the conditions that make it invalid (R16, R20, R24), and an image of the store with the
checks that make it bad and the fields a good one gives (R152 to R154, R165). -/
def Obligations.FormatsAreReadAtTheirBits : Prop :=
  (∀ (m : Mem) (a : Nat),
    let w (i : Nat) : Nat := (m.read (a + i)).toNat
    let r := readReport m a
    r.fault = w 0 % 256 ∧
    r.outcome = (match w 0 / 256 % 4 with | 1 => some .fail | 2 => some .pass | 3 => some .untestable | _ => none) ∧
    r.deviation = m.read (a + 1) ∧ r.count = max 1 (w 2 % 256) ∧ r.stamp = m.read (a + 3)) ∧
  (∀ (p : Port) (n : Nat) (k : Word), n ≤ 9 →
    recordAddress p (2 ^ n) k = (match p with | .e => 0x0800 | .a => 0x1000) + 4 * (k.toNat &&& (2 ^ n - 1)) ∧
    sampleAddress p (2 ^ n) k = (match p with | .e => 0x1800 | .a => 0x1A00) + 8 * (k.toNat &&& (2 ^ n - 1))) ∧
  (∀ (s : State) (p : Port),
    let q := s.rings.get p
    (s.presentSamples p).length = q.held ∧
    ∀ (i : Nat) (x : Sample), (s.presentSamples p)[i]? = some x →
      let a := sampleAddress p q.capacity (q.lastHead - BitVec.ofNat 16 q.held + BitVec.ofNat 16 i)
      x.time = fullTime s.sup.rideClock (s.srr.read a) ∧
      x.words = (List.range 8).map fun j => s.srr.read (a + j)) ∧
  (∀ (m : Mem) (f : FaultNo),
    let w (i : Nat) : Nat := (m.read (0x0400 + 8 * f.val + i)).toNat
    let priority := w 0 / 512 % 16
    let ring := w 0 / 128 % 4
    let lampHeal := w 0 / 8192
    let c := w 3 + 65536 * w 4
    let h := w 5 + 65536 * w 6
    let pre := w 7 % 16
    let post := w 7 / 16 % 16
    let aging := w 7 / 256
    let bad := w 1 = 0 ∨ 32767 < w 1 ∨ w 2 = 0 ∨ 32767 < w 2 ∨ c = 0 ∨ 2000000 < c ∨ h = 0 ∨ 2000000 < h ∨ ring = 3 ∨
      lampHeal = 0 ∨ (ring = 0 ∧ (pre ≠ 0 ∨ post ≠ 0)) ∨ 250 < aging
    (priority = 0 → readDefinition m f = .unused) ∧
    (priority ≠ 0 → bad → readDefinition m f = .invalid) ∧
    (priority ≠ 0 → ¬ bad → ∃ d : Definition, readDefinition m f = .valid d ∧
      d.source = (if w 0 % 2 = 0 then .e else .a) ∧
      d.lamp = (match w 0 / 2 % 4 with | 0 => .none | 1 => .engine | 2 => .abs | _ => .both) ∧
      d.pattern = (if w 0 / 8 % 2 = 0 then .steady else .slow) ∧ d.critical = decide (w 0 / 16 % 2 = 1) ∧
      d.fixed = decide (w 0 / 32 % 2 = 1) ∧ d.jump = decide (w 0 / 64 % 2 = 1) ∧
      d.ring = (match ring with | 1 => some .e | 2 => some .a | _ => none) ∧ d.priority.toNat = priority ∧
      d.lampHeal = lampHeal ∧ d.gF = w 1 ∧ d.gP = w 2 ∧ d.confirm = c ∧ d.healMag = h ∧ d.confirmAt = c ∧
      d.healAt = -(h : Int) ∧ d.pre.toNat = pre ∧ d.post.toNat = post ∧ d.aging = aging)) ∧
  (∀ m : Mem, m.Canonical 3 → ∀ n : Word,
    readHeaderImage m = some n ↔ m.read 0 + m.read 1 + m.read 2 = 0xA55A ∧ m.read 0 = 0x4B07 ∧ m.read 1 = n) ∧
  (∀ m : Mem, m.Canonical 280 →
    let w (i : Nat) : Nat := (m.read i).toNat
    let sums := (m.readRange 0 280).foldl (· + ·) 0 = 0xA55A
    let status := w 0 / 16 % 8
    let passes := w 1 % 256 < 128 ∧ w 1 / 256 % 16 ≠ 0 ∧ w 2 % 256 ≠ 0 ∧ w 2 / 256 ≤ 250 ∧ status ≤ 4
    let good := sums ∧ (w 0 % 4 = 1 ∨ w 0 % 4 = 2) ∧ passes
    (readSlotImage m = .erased ↔ sums ∧ w 0 % 4 = 0 ∧ ∀ a, a ≠ 10 → m.read a = 0) ∧
    (good → ∃ r : Record, readSlotImage m = .record r ∧ r.state = (if w 0 % 4 = 1 then .active else .stored) ∧
      r.lampLatch = decide (w 0 / 4 % 2 = 1) ∧
      r.frameStatus = (match status with | 1 => .capturing | 2 => .complete | 3 => .short | 4 => .missed | _ => .none) ∧
      r.preShort = decide (w 0 / 128 % 2 = 1) ∧ r.gap = decide (w 0 / 256 % 2 = 1) ∧ r.fault.val = w 1 % 256 ∧
      r.priority.toNat = w 1 / 256 % 16 ∧
      r.lamp = (match w 1 / 4096 % 4 with | 0 => .none | 1 => .engine | 2 => .abs | _ => .both) ∧
      r.pattern = (if w 1 / 16384 % 2 = 0 then .steady else .slow) ∧ r.occurrence = w 2 % 256 ∧ r.age = w 2 / 256 ∧
      r.clean = w 3 % 8 ∧ r.firstRide = m.read 4 ∧ r.lastRide = m.read 5 ∧
      r.firstFail.toNat = w 6 + 65536 * w 7 ∧ r.lastConfirm.toNat = w 8 + 65536 * w 9 ∧ r.frame = none ∧
      r.episodeFlag = false ∧ r.awaited = none) ∧
    (readSlotImage m = .bad ↔ ¬ good ∧ ¬ (sums ∧ w 0 % 4 = 0 ∧ ∀ a, a ≠ 10 → m.read a = 0)) ∧
    ∀ (i : SlotNo) (r : Record),
      let sound := w 32 % 256 = r.fault.val ∧ w 32 / 256 % 4 = 2 ∧ w 35 / 16 % 16 ≤ w 35 % 16 ∧
        w 35 / 4096 ≤ w 35 / 256 % 16 ∧
        match r.frameStatus with
        | .capturing => w 36 % 2 = 0
        | .complete => w 36 % 4 = 1
        | .short => w 36 % 4 = 3
        | _ => False
      (sound ↔ captureOfImage m i r ≠ none) ∧
      ∀ c : Capture, captureOfImage m i r = some c →
        c.holder = .record i ∧ c.fault = r.fault ∧ c.ring = (if w 32 / 1024 % 2 = 0 then .e else .a) ∧
        c.episode.time.toNat = w 33 + 65536 * w 34 ∧ c.preWanted = w 35 % 16 ∧ c.preGot = w 35 / 16 % 16 ∧
        c.postWanted = w 35 / 256 % 16 ∧ c.postGot = w 35 / 4096 ∧ c.preShort = decide (w 36 / 4 % 2 = 1) ∧
        c.gap = decide (w 36 / 8 % 2 = 1))

/-- READ shifts out the status byte, a 0x00 for each address byte, and the words from the 14-bit start address on,
wrapping from 0x3FFF to 0x0000, most significant byte first, each 0 throughout START-UP; where the chip select rises after
the first byte of a word, that byte stands last. A burst goes on at the next address; one cut in its address bytes shifts
out a 0x00 for each of them that was complete. Nothing but the port's own transaction changes, and no event is raised (R6,
R8, R13); that a READ cut in its address bytes clears the bad-command latch is the model's reading of R7 (log entry 6). -/
def Obligations.ReadShiftsOutWords : Prop :=
  ∀ (s : State) (p : Port) (n : Nat) (half : Bool), s.held = false →
    let word (a : Nat) : Word := if s.sup.mode = .startUp then 0 else s.srr.read (a % 16384)
    let high (a : Nat) : Byte := (word a >>> 8).setWidth 8
    let shown (a : Nat) : List Byte :=
      (List.range n).flatMap (fun i => [high (a + i), (word (a + i)).setWidth 8]) ++ if half then [high (a + n)] else []
    let Shows (c : Instr) (x : PortIf) : Prop :=
      ∃ t, exec c s = .next t ∧ t = { s with inFlight := t.inFlight, stores := [], ports := s.ports.set p x } ∧
        Raises c s t []
    ((s.ports.get p).link ≠ .abandoned →
      (∀ w : Word, Shows (.read p (.opens w) ⟨n, half⟩)
        { link := if half then .spent else .reading ((w.toNat + n) % 16384), badCommand := false,
          sdo := s.statusByte p :: 0 :: 0 :: shown w.toNat }) ∧
      ∀ k : Nat, Shows (.read p (.cut k) ⟨n, half⟩)
        { link := .spent, badCommand := false, sdo := s.statusByte p :: List.replicate k 0 }) ∧
    (∀ a : Nat, (s.ports.get p).link = .reading a → Shows (.read p .continues ⟨n, half⟩)
      { s.ports.get p with
        link := if half then .spent else .reading ((a + n) % 16384), sdo := (s.ports.get p).sdo ++ shown a })

/-- What a port may store (R5): the table's rows for the port's own words, whichever port it is. -/
def Obligations.StoreRightsFollowTheTable : Prop :=
  ∀ (s : State) (p : Port) (a : Nat) (bySwap : Bool),
    s.mayStore p a bySwap = true ↔
      (a = aRequest p ∧ bySwap = true) ∨
      ((a = aCode p ∨ a = aArg0 p ∨ a = aArg1 p) ∧ s.srr.read (aRequest p) ≠ 1 ∧ s.srr.read (aRequest p) ≠ 2) ∨
      a = aEnable p ∨ a = aPolarity p ∨ a = aOrder p ∨ a = aAck p ∨
      a = aTop p ∨ a = aEmptyLevel p ∨ a = aFullLevel p ∨ a = aHead p ∨
      ((a = aQueueMask p ∨ a = aRingMask p) ∧ s.sup.mode = .config ∧ s.handler.fdtLocked = false) ∨
      (p = .e ∧ 0x0400 ≤ a ∧ a ≤ 0x07FF ∧ s.sup.mode = .config ∧ s.handler.fdtLocked = false) ∨
      (queueBase p ≤ a ∧ a < queueBase p + 2048) ∨ (ringBase p ≤ a ∧ a < ringBase p + 512)

/-- WRITE: each completed word is judged on its own. A word the port may store is stored, with its write-watch event; a
word it may not store is dropped, and ACCESS is requested; in START-UP every word is dropped and nothing raised; a
transaction cut in its address bytes stores nothing, and the byte of a word cut off is discarded. A 0x00 is shifted out
for every complete byte. A burst is its words one after another: opened with some and gone on with the rest, it leaves the
same memory and the same transaction as with all at once, and it raises the events of its words in their order, each at
its own address (R5, R6, R9, R12, R13, R196); that a WRITE cut in its address bytes
clears the bad-command latch is the model's reading of R7 (log entry 6). -/
def Obligations.WriteStoresWhatItMay : Prop :=
  ∀ (s : State) (p : Port) (w v : Word) (half : Bool), s.held = false → (s.ports.get p).link ≠ .abandoned →
    (∃ t, exec (.write p (.opens w) ⟨[v], half⟩) s = .next t ∧
      t = { s with inFlight := t.inFlight, stores := t.stores, srr := t.srr, ports := s.ports.set p (t.ports.get p) } ∧
      t.ports.get p =
        { link := if half then .spent else .writing ((w.toNat + 1) % 16384), badCommand := false,
          sdo := s.statusByte p :: List.replicate (if half then 5 else 4) 0 } ∧
      let a := w.toNat % 16384
      (∀ b, b ≠ a → t.srr.read b = s.srr.read b) ∧
      (s.sup.mode = .startUp → t.srr.read a = s.srr.read a ∧ Raises (.write p (.opens w) ⟨[v], half⟩) s t []) ∧
      (s.sup.mode ≠ .startUp → s.mayStore p a false = false →
        t.srr.read a = s.srr.read a ∧ Raises (.write p (.opens w) ⟨[v], half⟩) s t [.latchRequest p ⟨.access, none⟩]) ∧
      (s.sup.mode ≠ .startUp → s.mayStore p a false = true →
        (a = aAck p → t.srr.read a = s.srr.read a ∧ Raises (.write p (.opens w) ⟨[v], half⟩) s t [.acknowledgement p v]) ∧
        (a = aEnable p → t.srr.read a = v &&& presentMask p ∧
          Raises (.write p (.opens w) ⟨[v], half⟩) s t [.maskChange p .enable (v &&& presentMask p)]) ∧
        (a = aPolarity p → t.srr.read a = v &&& 0x0600 ∧
          Raises (.write p (.opens w) ⟨[v], half⟩) s t [.maskChange p .polarity (v &&& 0x0600)]) ∧
        (a = aTop p → t.srr.read a = v ∧ Raises (.write p (.opens w) ⟨[v], half⟩) s t [.topTaken p v]) ∧
        (a = aEmptyLevel p ∨ a = aFullLevel p →
          t.srr.read a = v ∧ Raises (.write p (.opens w) ⟨[v], half⟩) s t [.levelReEvaluation p v]) ∧
        (a = aHead p → t.srr.read a = v ∧ Raises (.write p (.opens w) ⟨[v], half⟩) s t [.headWritten p v]) ∧
        (a ∉ [aAck p, aEnable p, aPolarity p, aTop p, aEmptyLevel p, aFullLevel p, aHead p] →
          t.srr.read a = v ∧ Raises (.write p (.opens w) ⟨[v], half⟩) s t []))) ∧
    (∀ (k : Nat) (us : List Word), ∃ t, exec (.write p (.cut k) ⟨us, half⟩) s = .next t ∧
      t = { s with inFlight := t.inFlight, stores := [],
                   ports := s.ports.set p { link := .spent, badCommand := false,
                                            sdo := s.statusByte p :: List.replicate k 0 } } ∧
      Raises (.write p (.cut k) ⟨us, half⟩) s t []) ∧
    (∀ us vs : List Word, ∃ t u r, exec (.write p (.opens w) ⟨us, false⟩) s = .next t ∧
      exec (.write p .continues ⟨vs, half⟩) t = .next u ∧ exec (.write p (.opens w) ⟨us ++ vs, half⟩) s = .next r ∧
      u.srr = r.srr ∧ u.ports = r.ports ∧
      (u.ports.get p).link =
        if half then .spent else .writing ((w.toNat + us.length + vs.length) % 16384)) ∧
    let events (a : Nat) (us : List Word) : List Instr :=
      us.zipIdx.flatMap fun (v, i) =>
        let b := (a + i) % 16384
        if s.sup.mode = .startUp then []
        else if s.mayStore p b false then (watchEvent p b (storedValue p b v)).toList
        else [.latchRequest p ⟨.access, none⟩]
    (∀ us : List Word, ∃ t, exec (.write p (.opens w) ⟨us, half⟩) s = .next t ∧
      Raises (.write p (.opens w) ⟨us, half⟩) s t (events w.toNat us)) ∧
    ∀ (a : Nat) (us : List Word), (s.ports.get p).link = .writing a → a < 16384 →
      ∃ t, exec (.write p .continues ⟨us, half⟩) s = .next t ∧
        Raises (.write p .continues ⟨us, half⟩) s t (events a us)

/-- SWAP makes one access to the addressed word: no right, and ACCESS is requested; another value than the compare word,
or a posting that R187 does not allow, and nothing follows; else the new word is stored, with its write-watch event. The
value read is shifted out after the new word. In START-UP nothing is stored and the old word is 0; a SWAP cut short
reads and stores nothing, and shifts out a 0x00 for each complete byte (R6, R10, R12, R13, R187); that it clears the
bad-command latch is the model's reading of R7 (log entry 6). -/
def Obligations.SwapComparesAndStores : Prop :=
  ∀ (s : State) (p : Port) (w c n : Word) (extra : Nat), s.held = false → (s.ports.get p).link ≠ .abandoned →
    (∃ t, exec (.swap p (.whole w c n extra)) s = .next t ∧
      t = { s with inFlight := t.inFlight, stores := t.stores, srr := t.srr, ports := s.ports.set p (t.ports.get p) } ∧
      let cmd := Instr.swap p (.whole w c n extra)
      let a := w.toNat % 16384
      let old := if s.sup.mode = .startUp then 0 else s.srr.read a
      let posting := (n = 1 ∧ (old = 0 ∨ old = 3 ∨ old = 4)) ∨ (n = 0 ∧ (old = 3 ∨ old = 4))
      t.ports.get p =
        { link := .spent, badCommand := false,
          sdo := s.statusByte p :: List.replicate 6 0 ++
            ([(old >>> 8).setWidth 8, old.setWidth 8] ++ List.replicate extra 0).take extra } ∧
      (∀ b, b ≠ a → t.srr.read b = s.srr.read b) ∧
      (s.sup.mode = .startUp → t.srr.read a = s.srr.read a ∧ Raises cmd s t []) ∧
      (s.sup.mode ≠ .startUp → s.mayStore p a true = false →
        t.srr.read a = s.srr.read a ∧ Raises cmd s t [.latchRequest p ⟨.access, none⟩]) ∧
      (s.sup.mode ≠ .startUp → s.mayStore p a true = true →
        (old ≠ c → t.srr.read a = old ∧ Raises cmd s t []) ∧
        (old = c → a = aRequest p →
          (posting → t.srr.read a = n ∧
            Raises cmd s t [if n = 1 then .requestPosted p else .requestReleased p]) ∧
          (¬ posting → t.srr.read a = old ∧ Raises cmd s t [])) ∧
        (old = c → a = aAck p → t.srr.read a = old ∧ Raises cmd s t [.acknowledgement p n]) ∧
        (old = c → a ≠ aRequest p → a ≠ aAck p → t.srr.read a = storedValue p a n ∧
          Raises cmd s t (watchEvent p a (storedValue p a n)).toList))) ∧
    (∀ k : Nat, ∃ t, exec (.swap p (.cut k)) s = .next t ∧
      t = { s with inFlight := t.inFlight, stores := [],
                   ports := s.ports.set p { link := .spent, badCommand := false,
                                            sdo := s.statusByte p :: List.replicate k 0 } } ∧
      Raises (.swap p (.cut k)) s t [])

/-- STATUS shifts out, after the byte sampled at the fall, a status byte sampled as each byte begins, while a RESTART with
no further bit raises one restart event at each of four blocks and one with further bits is void (R6, R7, R11, R13). That
a void RESTART, and one in START-UP, clear the bad-command latch too is the model's reading of R7 (log entry 6). -/
def Obligations.StatusFollowsAndRestartRaises : Prop :=
  ∀ (s : State) (p : Port), s.held = false → (s.ports.get p).link ≠ .abandoned →
    (∀ n : Nat, ∃ t, exec (.status p true n) s = .next t ∧
      (t.ports.get p).sdo = s.statusByte p :: List.replicate n (t.statusByte p) ∧
      (t.ports.get p).badCommand = false ∧ (t.ports.get p).link = .statusOut ∧
      t = { s with inFlight := t.inFlight, stores := [], ports := s.ports.set p (t.ports.get p) } ∧
      Raises (.status p true n) s t []) ∧
    (∀ n : Nat, (s.ports.get p).link = .statusOut → ∃ t, exec (.status p false n) s = .next t ∧
      t.ports.get p = { s.ports.get p with sdo := (s.ports.get p).sdo ++ List.replicate n (s.statusByte p) } ∧
      t = { s with inFlight := t.inFlight, stores := [], ports := s.ports.set p (t.ports.get p) } ∧
      Raises (.status p false n) s t []) ∧
    (∀ k : Nat, ∃ t, exec (.restart p k) s = .next t ∧
      t.ports.get p =
        { link := .deselected, badCommand := false, sdo := s.statusByte p :: List.replicate (k / 8) 0 } ∧
      t = { s with inFlight := t.inFlight, stores := [], ports := s.ports.set p (t.ports.get p) } ∧
      Raises (.restart p k) s t
        (if k = 0 ∧ s.sup.mode ≠ .startUp then
          [.intakeRestart p, .ringRestart p, .requestRestart p, .attentionRestart p]
        else []))

/-- A bad command sets the bad-command latch and, outside START-UP, requests ACCESS, and the port shifts out 0x00; a
chip select that rises ends the transaction. A port that has abandoned its transaction takes no command until its chip
select has risen (R6, R7, R13, R194); that the rise which a RESTART contains ends the abandoned transaction (log entry
15), and that bits that go on with no burst of their kind change nothing (log entry 6), are the model's readings. -/
def Obligations.BadCommandLatchesAndRiseEnds : Prop :=
  ∀ (s : State) (p : Port),
    (∀ (b : Byte) (n : Nat), s.held = false → (s.ports.get p).link ≠ .abandoned →
      ∃ t, exec (.badCommand p b n) s = .next t ∧
        t.ports.get p = { link := .spent, badCommand := true, sdo := s.statusByte p :: List.replicate n 0 } ∧
        t = { s with inFlight := t.inFlight, stores := [], ports := s.ports.set p (t.ports.get p) } ∧
        Raises (.badCommand p b n) s t (if s.sup.mode = .startUp then [] else [.latchRequest p ⟨.access, none⟩])) ∧
    (∃ t, exec (.chipSelectRise p) s = .next t ∧
      t.ports.get p = { s.ports.get p with link := .deselected } ∧
      t = { s with inFlight := t.inFlight, stores := [], ports := s.ports.set p (t.ports.get p) } ∧
      Raises (.chipSelectRise p) s t []) ∧
    (s.held = false → (s.ports.get p).link = .abandoned →
      (∀ c : Instr, c.ofPort = some p → c ≠ .chipSelectRise p → (∀ k, c ≠ .restart p k) → ChangesNothing c s) ∧
      ∀ k : Nat, ∃ t, exec (.restart p k) s = .next t ∧
        t.ports.get p = { s.ports.get p with link := .deselected } ∧
        t = { s with inFlight := s.inFlight.erase (.restart p k), stores := [],
                     ports := s.ports.set p (t.ports.get p) }) ∧
    (∀ (n : Nat) (half : Bool), (∀ a, (s.ports.get p).link ≠ .reading a) →
      ChangesNothing (.read p .continues ⟨n, half⟩) s) ∧
    (∀ (vs : List Word) (half : Bool), (∀ a, (s.ports.get p).link ≠ .writing a) →
      ChangesNothing (.write p .continues ⟨vs, half⟩) s) ∧
    (∀ n : Nat, (s.ports.get p).link ≠ .statusOut → ChangesNothing (.status p false n) s)

/-- No command of a port reaches further than R5 lets it: it changes no word outside the port's own areas, no mask word
and no word of the fault definition table but in CONFIG unlocked, no code or argument word while a request is in hand,
the request state word by SWAP alone, nothing in START-UP, and of the part's other state nothing but its own port. -/
def Obligations.PortsReachTheirOwnWordsAlone : Prop :=
  ∀ (c : Instr) (p : Port) (s t : State), c.ofPort = some p → exec c s = .next t →
    t = { s with inFlight := t.inFlight, stores := t.stores, srr := t.srr, ports := s.ports.set p (t.ports.get p) } ∧
    ∀ a : Nat,
      (¬ portWritable p a → t.srr.read a = s.srr.read a) ∧
      ((a = aQueueMask p ∨ a = aRingMask p ∨ (0x0400 ≤ a ∧ a < 0x0800)) → s.editable = false →
        t.srr.read a = s.srr.read a) ∧
      ((a = aCode p ∨ a = aArg0 p ∨ a = aArg1 p) → s.inHand p = true → t.srr.read a = s.srr.read a) ∧
      (a = aRequest p → (∀ f, c ≠ .swap p f) → t.srr.read a = s.srr.read a) ∧
      (s.sup.mode = .startUp → t.srr.read a = s.srr.read a)

/-! ### Symptom Intake (spec 03) -/

/-- The stamp of a report and of a context sample gives its full time at the ride clock as it stands, with which a take
applies a good report and the capture unit reads a sample: a lead of 1 to 255 ticks counts as now; else the
full time is the largest value not above now whose low 16 bits are the stamp; else it is 0 (R38). -/
def Obligations.StampsGiveFullTimes : Prop :=
  (∀ (now : Time) (stamp : Word),
    let lead := (stamp - now.setWidth 16).toNat
    let lag := (now.setWidth 16 - stamp).toNat
    (1 ≤ lead ∧ lead ≤ 255 → fullTime now stamp = now) ∧
    (¬ (1 ≤ lead ∧ lead ≤ 255) → lag ≤ now.toNat →
      (fullTime now stamp).toNat + lag = now.toNat ∧ (fullTime now stamp).setWidth 16 = stamp ∧
      ∀ u : Time, u ≤ now → u.setWidth 16 = stamp → u ≤ fullTime now stamp) ∧
    (¬ (1 ≤ lead ∧ lead ≤ 255) → now.toNat < lag → fullTime now stamp = 0)) ∧
  (∀ (s : State) (p : Port) (k : Word),
    (s.readSample p k).time = fullTime s.sup.rideClock (s.srr.read (sampleAddress p (s.rings.get p).capacity k))) ∧
  ∀ (s : State) (p : Port) (f : FaultNo) (d : Definition) (o : ReportOutcome), s.Running →
    (s.queues.get p).occupancy ≠ 0 →
    let q := s.queues.get p
    let record := recordAddress p q.capacity q.bottom
    let r := readReport s.srr record
    s.validate p r = .good f d o →
    ∃ t, exec (.recordTake p) s = .next t ∧
      t.faults[f] =
        (applyReport f d o r.count r.deviation (fullTime s.sup.rideClock (s.srr.read (record + 3))) s.faults[f]).1

/-- Validation rejects a record for the first condition of the table that holds, and a record for which none holds is
good; deviation, repeat and stamp are not looked at (R35). -/
def Obligations.ValidationFollowsTheTable : Prop :=
  ∀ (s : State) (p : Port) (r : Report),
    let undefined := ∃ h : r.fault < 128, (s.faults[r.fault]).defn = none
    let wrongPort := ∃ (h : r.fault < 128) (d : Definition), (s.faults[r.fault]).defn = some d ∧ d.source ≠ p
    let noRide := s.sup.mode ≠ .ride ∧ ¬ (s.sup.mode = .closing ∧ 0 < (s.queues.get p).drain)
    (r.outcome = none → s.validate p r = .reject 1) ∧
    (r.outcome ≠ none → 128 ≤ r.fault → s.validate p r = .reject 2) ∧
    (r.outcome ≠ none → undefined → s.validate p r = .reject 3) ∧
    (r.outcome ≠ none → wrongPort → s.validate p r = .reject 4) ∧
    (r.outcome ≠ none → r.fault < 128 → ¬ undefined → ¬ wrongPort → noRide → s.validate p r = .reject 5) ∧
    (∀ (f : FaultNo) (d : Definition) (o : ReportOutcome), s.validate p r = .good f d o ↔
      r.outcome = some o ∧ r.fault = f.val ∧ (s.faults[f]).defn = some d ∧ d.source = p ∧ ¬ noRide) ∧
    (∀ q : Report, q.fault = r.fault → q.outcome = r.outcome → s.validate p q = s.validate p r)

/-- TOP_TAKEN: the occupancy is (t − bottom) modulo 65536; unchanged, nothing else follows; within the capacity, it is
stored and the level conditions evaluated; above the capacity, the bottom moves to (t − capacity), the records between
are discarded, OVERRUN is requested and in CLOSING the drain count falls by their number, and once it is 0 the queue has
been reported drained. LEVEL_RE_EVALUATION evaluates
both conditions, and an edge requests its cause by its polarity (R32, R33, R41 to R44). -/
def Obligations.TopTakenCountsOrRepairs : Prop :=
  (∀ (s : State) (p : Port) (top : Word), s.Running →
    ∃ t, exec (.topTaken p top) s = .next t ∧
      t = { s with inFlight := t.inFlight, stores := t.stores, srr := t.srr,
                   queues := s.queues.set p (t.queues.get p) } ∧
      SrrOnly s t (fun a => a = aBottom p ∨ a = aOccupancy p) ∧
      let q := s.queues.get p
      let q' := t.queues.get p
      let n := (top - q.bottom).toNat
      let polarity := s.srr.read (aPolarity p)
      q'.takenTop = top ∧ q'.capacity = q.capacity ∧
      (n = q.occupancy → n ≤ q.capacity →
        q' = { q with takenTop := top } ∧ SrrSame s t ∧ Raises (.topTaken p top) s t []) ∧
      (n ≠ q.occupancy → n ≤ q.capacity →
        q'.bottom = q.bottom ∧ q'.occupancy = n ∧ q'.drain = q.drain ∧ q'.reported = q.reported ∧
        LevelsHold s p q' ∧ t.srr.read (aOccupancy p) = BitVec.ofNat 16 n ∧
        t.srr.read (aBottom p) = s.srr.read (aBottom p) ∧
        Raises (.topTaken p top) s t (levelRequests p polarity q q')) ∧
      (q.capacity < n →
        q'.bottom = top - BitVec.ofNat 16 q.capacity ∧ q'.occupancy = q.capacity ∧ LevelsHold s p q' ∧
        q'.drain = (if s.sup.mode = .closing then q.drain - (q'.bottom - q.bottom).toNat else q.drain) ∧
        q'.reported = (q.reported || (decide (s.sup.mode = .closing) && decide (q'.drain = 0))) ∧
        t.srr.read (aBottom p) = q'.bottom ∧ t.srr.read (aOccupancy p) = BitVec.ofNat 16 q.capacity ∧
        Raises (.topTaken p top) s t
          (.latchRequest p ⟨.overrun, none⟩ :: (levelRequests p polarity q q' ++ drainedReport s p q'.drain)))) ∧
  ∀ (s : State) (p : Port) (v : Word), s.Running →
    ∃ t, exec (.levelReEvaluation p v) s = .next t ∧
      t = { s with inFlight := t.inFlight, stores := [], queues := s.queues.set p (t.queues.get p) } ∧
      t.queues.get p =
        { s.queues.get p with almostEmpty := (t.queues.get p).almostEmpty, almostFull := (t.queues.get p).almostFull } ∧
      LevelsHold s p (t.queues.get p) ∧
      Raises (.levelReEvaluation p v) s t
        (levelRequests p (s.srr.read (aPolarity p)) (s.queues.get p) (t.queues.get p))

/-- What every take of a record does to its queue: the bottom and the occupancy move by one and are stored, the level
conditions are evaluated, and in CLOSING the drain count falls by one, the queue having been reported drained once it is 0
(R34, R41). -/
def TakeMovesTheQueue (s t : State) (p : Port) : Prop :=
  let q := s.queues.get p
  let q' := t.queues.get p
  q'.bottom = q.bottom + 1 ∧ q'.occupancy = q.occupancy - 1 ∧ q'.takenTop = q.takenTop ∧ q'.capacity = q.capacity ∧
  LevelsHold s p q' ∧ q'.drain = (if s.sup.mode = .closing then q.drain - 1 else q.drain) ∧
  q'.reported = (q.reported || (decide (s.sup.mode = .closing) && decide (q'.drain = 0))) ∧
  t.srr.read (aBottom p) = q.bottom + 1 ∧ t.srr.read (aOccupancy p) = BitVec.ofNat 16 (q.occupancy - 1)

/-- The top cause word of `t` is the code of the first latched cause in the order the order select chooses, 0 when nothing
is latched (R182). -/
def TopShows (t : State) (p : Port) : Prop :=
  let order := if (t.srr.read (aOrder p)).getLsbD 0 then [10, 11, 1, 7, 9, 3, 2, 4, 5, 6, 8]
    else [1, 2, 3, 4, 5, 6, 7, 8, 9, 10, 11]
  t.srr.read (aTopCause p) =
    BitVec.ofNat 16 ((order.find? fun c => (t.srr.read (aLatched p)).getLsbD (c - 1)).getD 0)

/-- RECORD_TAKE of a record that fails validation: it is consumed and reaches no fault. While REJECT is not latched the
detail words are stored and REJECT is latched if enabled, the top cause following it; while it is latched neither changes
(R34, R36, R182). With occupancy 0 there is no record to take. -/
def Obligations.RejectedRecordIsConsumed : Prop :=
  ∀ (s : State) (p : Port) (reason : Nat), s.Running →
    ((s.queues.get p).occupancy = 0 → exec (.recordTake p) s = .next (s.begin (.recordTake p))) ∧
    ((s.queues.get p).occupancy ≠ 0 →
      let q := s.queues.get p
      let r := readReport s.srr (recordAddress p q.capacity q.bottom)
      s.validate p r = .reject reason →
      ∃ t, exec (.recordTake p) s = .next t ∧
        t = { s with inFlight := t.inFlight, stores := t.stores, srr := t.srr,
                     queues := s.queues.set p (t.queues.get p) } ∧
        TakeMovesTheQueue s t p ∧
        Raises (.recordTake p) s t
          (levelRequests p (s.srr.read (aPolarity p)) q (t.queues.get p) ++ drainedReport s p (t.queues.get p).drain) ∧
        ((s.srr.read (aLatched p)).getLsbD 2 = true →
          SrrOnly s t (fun a => a = aBottom p ∨ a = aOccupancy p)) ∧
        ((s.srr.read (aLatched p)).getLsbD 2 = false →
          SrrOnly s t (fun a => a ∈ [aBottom p, aOccupancy p, aRejectReason p, aRejectFault p, aRejectIndex p,
            aLatched p, aTopCause p]) ∧
          t.srr.read (aRejectReason p) = BitVec.ofNat 16 reason ∧
          t.srr.read (aRejectFault p) = BitVec.ofNat 16 r.fault ∧ t.srr.read (aRejectIndex p) = q.bottom ∧
          t.srr.read (aLatched p) =
            (if (s.enables.get p).getLsbD 2 then s.srr.read (aLatched p) ||| 4 else s.srr.read (aLatched p)) ∧
          ((s.enables.get p).getLsbD 2 = true → TopShows t p) ∧
          ((s.enables.get p).getLsbD 2 = false → t.srr.read (aTopCause p) = s.srr.read (aTopCause p))))

/-- RECORD_TAKE of a good record: the report is applied to its fault's entry with the record's deviation, repeat and full
time, the view of that fault is rewritten if a published field changed, the events are raised in their order, and the
queue moves on (R34, R38, R39, R52, R64). -/
def Obligations.GoodRecordIsApplied : Prop :=
  ∀ (s : State) (p : Port) (f : FaultNo) (d : Definition) (o : ReportOutcome), s.Running →
    (s.queues.get p).occupancy ≠ 0 →
    let q := s.queues.get p
    let r := readReport s.srr (recordAddress p q.capacity q.bottom)
    s.validate p r = .good f d o →
    ∃ t, exec (.recordTake p) s = .next t ∧
      t = { s with inFlight := t.inFlight, stores := t.stores, srr := t.srr, faults := t.faults,
                   queues := s.queues.set p (t.queues.get p) } ∧
      TakeMovesTheQueue s t p ∧
      SrrOnly s t (fun a => a = aBottom p ∨ a = aOccupancy p ∨ inFaultView f a) ∧ FaultViewKept s t f ∧
      let applied := applyReport f d o r.count r.deviation (fullTime s.sup.rideClock r.stamp) s.faults[f]
      t.faults = s.faults.set f applied.1 ∧
      Raises (.recordTake p) s t
        (applied.2 ++ levelRequests p (s.srr.read (aPolarity p)) q (t.queues.get p) ++
          drainedReport s p (t.queues.get p).drain)

/-- INTAKE_RESTART empties the queue and clears the reject detail without latching a level cause, and ends its drain in
CLOSING; QUEUE_DRAINED notes the report, and the second one raises the ride-end event at the Frame Capture Unit. That a
report is remembered in a flag of the queue is the model's reading of "once" (log entry 10), and that the top word reads 0
whatever the port has stored there since its RESTART is the model's choice (log entry 29) (R45, R47, R148). -/
def Obligations.RestartEmptiesTheQueueAndDrainIsReported : Prop :=
  ∀ (s : State) (p : Port), s.Running →
    (∃ t, exec (.intakeRestart p) s = .next t ∧
      t = { s with inFlight := t.inFlight, stores := t.stores, srr := t.srr,
                   queues := s.queues.set p (t.queues.get p) } ∧
      let q := s.queues.get p
      let q' := t.queues.get p
      q'.takenTop = 0 ∧ q'.bottom = 0 ∧ q'.occupancy = 0 ∧ q'.capacity = q.capacity ∧ LevelsHold s p q' ∧
      q'.drain = (if s.sup.mode = .closing then 0 else q.drain) ∧
      q'.reported = (q.reported || decide (s.sup.mode = .closing)) ∧
      SrrOnly s t (fun a => a ∈ [aTop p, aBottom p, aOccupancy p, aRejectReason p, aRejectFault p, aRejectIndex p]) ∧
      (∀ a ∈ [aTop p, aBottom p, aOccupancy p, aRejectReason p, aRejectFault p, aRejectIndex p], t.srr.read a = 0) ∧
      Raises (.intakeRestart p) s t (drainedReport s p 0)) ∧
    (∃ t, exec (.queueDrained p) s = .next t ∧
      t = { s with inFlight := t.inFlight, stores := [],
                   sup := { s.sup with drained := s.sup.drained.set p true } } ∧
      Raises (.queueDrained p) s t
        (if s.sup.mode = .closing ∧ s.sup.drained.get p = false ∧ s.sup.drained.set p true = { e := true, a := true } then
          [.fcuRideEndEvent]
        else []))

/-! ### Fault Qualifier (spec 04) -/

/-- The magnitude is 32768 in FIXED mode, else the absolute value of the deviation, which lies in 0..32768 (R53). The step
is g × m / 32768 rounded to the nearest integer, an exact half rounded up, and 1 where that gives 0; it lies in 1..32767,
and in FIXED mode it is the gain (R54, R55). The update: after the jump the accumulator moves by n steps, upward for a FAIL
and downward for a PASS, and is clamped to H..C; before the clamp it lies in −10,355,585..10,355,585, so that 32 bits hold
it (R56, R57). -/
def Obligations.UpdateMovesByTheRoundedStep : Prop :=
  (∀ (d : Definition) (dev : Word),
    (d.fixed = true → magnitude d dev = 32768) ∧
    (d.fixed = false → magnitude d dev = dev.toInt.natAbs ∧ magnitude d dev ≤ 32768 ∧
      (dev = 0x8000#16 → magnitude d dev = 32768) ∧ (dev ≠ 0x8000#16 → magnitude d dev ≤ 32767))) ∧
  (∀ g m : Nat, 1 ≤ g → g ≤ 32767 → m ≤ 32768 →
    1 ≤ stepOf g m ∧ stepOf g m ≤ 32767 ∧
    (2 * (g * m) < 32768 → stepOf g m = 1) ∧
    (32768 ≤ 2 * (g * m) → 2 * (stepOf g m * 32768) ≤ 2 * (g * m) + 32768 ∧
      2 * (g * m) + 32768 < 2 * (stepOf g m * 32768) + 65536) ∧
    stepOf g 32768 = g) ∧
  ∀ (d : Definition) (fails : Bool) (n : Nat) (dev : Word) (a : Int), d.Wf → d.healAt ≤ a → a ≤ d.confirmAt →
    1 ≤ n → n ≤ 255 →
    let start := if d.jump = true ∧ ((fails = true ∧ a < 0) ∨ (fails = false ∧ 0 < a)) then 0 else a
    let by' : Int := (n * stepOf (if fails then d.gF else d.gP) (magnitude d dev) : Nat)
    let moved := if fails then start + by' else start - by'
    moved ≤ 10355585 ∧ -10355585 ≤ moved ∧
    updatedAcc d fails n dev a = max d.healAt (min d.confirmAt moved) ∧
    (fails = true → updatedAcc d fails n dev a ≠ d.healAt) ∧ (fails = false → updatedAcc d fails n dev a ≠ d.confirmAt)

/-- A FAIL applied to a fault's entry (R59, R61, R62, R63, R66, R67, R69). Untested, passing or passed, it opens an
episode: T, the next episode number, a trigger if the fault takes a frame, and CONFIRMED at C or SUSPECT below it. In
SUSPECT it confirms at C. In CONFIRMED and RECOVERING it is CONFIRMED at C and makes no confirm. A confirm raises its
confirm notice, its confirm event and CONFIRM, in that order; a change of state with a lamp raises a demand notice last. -/
def Obligations.FailMovesTheFault : Prop :=
  ∀ (f : FaultNo) (d : Definition) (n : Nat) (dev : Word) (time : Time) (e : FaultEntry), e.defn = some d → e.Wf →
    1 ≤ n → n ≤ 255 →
    let a := updatedAcc d true n dev e.acc
    let r := applyReport f d .fail n dev time e
    let e' := r.1
    let opened : EpisodeId := { number := e.episode + 1, time := time }
    let confirmsOf (ep : EpisodeId) : List Instr :=
      (if d.ring = none then [] else [.confirmNotice f ep]) ++
        [.confirmEvent f ep time d.priority d.lamp d.pattern (decide (d.ring = none)), .latchRequest d.source ⟨.confirm, some f⟩]
    let notice := if e'.phase ≠ e.phase ∧ d.lamp ≠ .none then [Instr.demandNotice f] else []
    e'.defn = some d ∧ e'.acc = a ∧ e'.tested = (e.tested || decide (a = d.confirmAt)) ∧ e'.slot = e.slot ∧
    e'.unstored = e.unstored ∧
    (e.phase.episodeOpen = false →
      e'.phase = (if a = d.confirmAt then .confirmed else .suspect) ∧ e'.trigger = some time ∧
      e'.episode = e.episode + 1 ∧ e'.captureLost = false ∧ e'.capture = none ∧
      e'.confirmedRide = (e.confirmedRide || decide (a = d.confirmAt)) ∧
      r.2 = (match d.ring with | some x => [.trigger f opened x d.pre d.post d.priority] | none => []) ++
        (if a = d.confirmAt then confirmsOf opened else []) ++ notice) ∧
    (e.phase = .suspect →
      e'.phase = (if a = d.confirmAt then .confirmed else .suspect) ∧ e'.trigger = e.trigger ∧
      e'.episode = e.episode ∧ e'.captureLost = e.captureLost ∧
      e'.capture = (if a = d.confirmAt then none else e.capture) ∧
      e'.confirmedRide = (e.confirmedRide || decide (a = d.confirmAt)) ∧
      ∀ T, e.trigger = some T →
        r.2 = (if a = d.confirmAt then confirmsOf { number := e.episode, time := T } else []) ++ notice) ∧
    (e.phase = .confirmed ∨ e.phase = .recovering →
      e'.phase = (if a = d.confirmAt then .confirmed else .recovering) ∧ e'.trigger = e.trigger ∧
      e'.episode = e.episode ∧ e'.confirmedRide = e.confirmedRide ∧ e'.capture = none ∧
      e'.captureLost = e.captureLost ∧ r.2 = notice)

/-- A PASS applied to a fault's entry (R60 to R63, R68, R69): PASSED at H, with a heal where the fault was CONFIRMED or
RECOVERING and an episode close where it was SUSPECT, T and the capture reference absent; above H, PASSING from a closed
episode, SUSPECT kept, and RECOVERING from a confirmed one. An UNTESTABLE report changes nothing and raises nothing (R58).
-/
def Obligations.PassMovesTheFault : Prop :=
  ∀ (f : FaultNo) (d : Definition) (n : Nat) (dev : Word) (time : Time) (e : FaultEntry), e.defn = some d → e.Wf →
    1 ≤ n → n ≤ 255 →
    let a := updatedAcc d false n dev e.acc
    let r := applyReport f d .pass n dev time e
    let e' := r.1
    let notice := if e'.phase ≠ e.phase ∧ d.lamp ≠ .none then [Instr.demandNotice f] else []
    (e'.defn = some d ∧ e'.acc = a ∧ e'.tested = (e.tested || decide (a = d.healAt)) ∧
      e'.confirmedRide = e.confirmedRide ∧ e'.slot = e.slot ∧ e'.unstored = e.unstored ∧ e'.episode = e.episode ∧
      e'.captureLost = e.captureLost ∧ e'.capture = if a = d.healAt then none else e.capture) ∧
    (a = d.healAt → e'.phase = .passed ∧ e'.trigger = none) ∧
    (a ≠ d.healAt →
      e'.phase = (match e.phase with
        | .suspect => .suspect
        | .confirmed => .recovering
        | .recovering => .recovering
        | _ => .passing) ∧ e'.trigger = e.trigger) ∧
    (∀ T, e.trigger = some T → e.phase = .suspect → a = d.healAt →
      r.2 = (if d.ring = none then [] else [.episodeClose f { number := e.episode, time := T }]) ++ notice) ∧
    (e.phase = .confirmed ∨ e.phase = .recovering → a = d.healAt → r.2 = .heal f :: notice) ∧
    (e.phase.episodeOpen = false ∨ a ≠ d.healAt → r.2 = notice) ∧
    applyReport f d .untestable n dev time e = (e, [])

/-- The notices of the Frame Capture Unit and of the manager to the qualifier: an opened capture is referred to by a
fault that is SUSPECT in that episode, a lost one sets capture-lost in its episode, a released one is referred to no
more, and a slot notice sets the slot and the unstored flag of a defined fault; any other is dropped. No notice changes
state, accumulator, T or ride flags, and the view is rewritten where a published field changed (R52, R70, R71). -/
def Obligations.NoticesReachTheEntry : Prop :=
  ∀ (s : State) (f : FaultNo), s.Running →
    let e := s.faults[f]
    let Takes (c : Instr) (e' : FaultEntry) : Prop :=
      ∃ t, exec c s = .next t ∧ t.faults = s.faults.set f e' ∧
        t = { s with inFlight := s.inFlight.erase c, stores := t.stores, srr := t.srr, faults := t.faults } ∧
        SrrOnly s t (inFaultView f) ∧ FaultViewKept s t f
    (∀ (b : BufNo) (ep : EpisodeId),
      Takes (.captureOpened f b ep)
        (if e.defn ≠ none ∧ e.phase = .suspect ∧ e.trigger = some ep.time ∧ e.episode = ep.number then
          { e with capture := some b } else e)) ∧
    (∀ (ep : EpisodeId) (o : Option BufNo),
      Takes (.captureLost f ⟨ep, o⟩)
        (if e.defn ≠ none ∧ e.trigger = some ep.time ∧ e.episode = ep.number then
          { e with captureLost := true, capture := none } else e)) ∧
    (∀ (b : BufNo) (ep : EpisodeId),
      Takes (.captureReleased f b ep) (if e.capture = some b then { e with capture := none } else e)) ∧
    (∀ (i : Option SlotNo) (u : Option Bool),
      Takes (.slotNotice f i u)
        (if e.defn ≠ none then { e with slot := i, unstored := u.getD e.unstored } else e))

/-- QUALIFIER_CLEAR: a defined fault's entry is reset with its slot reference absent, a referenced capture is discarded,
the clear of the fault is raised at the Frame Capture Unit and a demand notice where the state changed with a lamp; an
UNDEFINED fault's entry is left as it stands. Either way a clear event is raised at the manager, last (R72, R74, R101,
R126). -/
def Obligations.ClearResetsTheEntry : Prop :=
  ∀ (s : State) (f : FaultNo), s.Running →
    let e := s.faults[f]
    ∃ t, exec (.qualifierClear f) s = .next t ∧
      t = { s with inFlight := t.inFlight, stores := t.stores, srr := t.srr, faults := t.faults } ∧
      SrrOnly s t (inFaultView f) ∧ FaultViewKept s t f ∧
      (e.defn = none → t.faults = s.faults ∧ Raises (.qualifierClear f) s t [.clearEvent f]) ∧
      (∀ d, e.defn = some d →
        t.faults = s.faults.set f
          { e with phase := .untested, acc := 0, tested := false, confirmedRide := false, trigger := none,
                   capture := none, captureLost := false, slot := none, unstored := false } ∧
        Raises (.qualifierClear f) s t
          ((match e.capture with | some b => [.entryResetDiscard f b] | none => []) ++ [.captureUnitClear f] ++
            (if e.phase ≠ .untested ∧ d.lamp ≠ .none then [.demandNotice f] else []) ++ [.clearEvent f]))

/-! ### Rings and qualification (spec 05, spec 07) -/

/-- HEAD_WRITTEN: an advance of 0 changes nothing; any other makes h the last head, counts the samples held, makes the
ring LIVE in RIDE with its timer at 0 and keeps its state outside RIDE, and hands the arrived samples to the supervisor
in index order, as the table of R79 gives them (R78 to R83). That a LIVE or STALLED ring, too, keeps its state outside RIDE
is the model's choice (log entry 24). -/
def Obligations.HeadMovesTheTracker : Prop :=
  ∀ (s : State) (p : Port) (h : Word), s.Running → s.QueuesWf →
    let q := s.rings.get p
    let advance := (h - q.lastHead).toNat
    (advance = 0 → exec (.headWritten p h) s = .next (s.begin (.headWritten p h))) ∧
    (advance ≠ 0 →
      ∃ t raised, exec (.headWritten p h) s = .next t ∧ Raises (.headWritten p h) s t raised ∧
        t = { s with inFlight := t.inFlight, stores := t.stores, srr := t.srr, pool := t.pool,
                     rings := s.rings.set p (t.rings.get p) } ∧
        SrrOnly s t (fun a => a = aRingState p ∨ 0x2800 ≤ a) ∧
        t.rings.get p =
          { lastHead := h, capacity := q.capacity,
            held := if advance ≤ q.capacity then min (q.held + advance) q.capacity
              else if advance ≤ 32767 then q.capacity else 0,
            state := if s.sup.mode = .ride then .live else q.state,
            timer := if s.sup.mode = .ride then some 0 else q.timer } ∧
        t.srr.read (aRingState p) = (if s.sup.mode = .ride ∧ q.state ≠ .live then 1 else s.srr.read (aRingState p)) ∧
        (.ringStateReport p .live ∈ raised ↔ s.sup.mode = .ride ∧ q.state ≠ .live) ∧
        (s.CapturesWf → SrrOnly s t (fun a => a = aRingState p ∨
          ∃ b c, s.pool[b] = some c ∧ OpenOn p c ∧ inBuffer b a)) ∧
        raised.filter isArrival =
          (List.range (arrivalsOf advance q.capacity)).map fun i =>
            let k := h - BitVec.ofNat 16 (arrivalsOf advance q.capacity) + BitVec.ofNat 16 i
            let a := sampleAddress p q.capacity k
            .qualificationArrival p (fullTime s.sup.rideClock (s.srr.read a)) (s.srr.read (a + 1)))

/-- The samples that arrive with an advance of at most the capacity, one by one in index order: an OPEN capture of the ring
takes each one whose time is above T, in the place after its last post sample, its header rewritten for it, and closes
COMPLETE with the last one wanted; any other capture is left as it was. Each sample's notices stand in ascending buffer
number before its arrival at the supervisor (R79, R80, R86, R93, R95); a report that the ring is LIVE comes last (R83, log
entry 24). -/
def Obligations.ArrivalFeedsOpenCaptures : Prop :=
  ∀ (s : State) (p : Port) (n : Nat), s.Running → s.QueuesWf → s.CapturesWf → 1 ≤ n → n ≤ (s.rings.get p).capacity →
    let q := s.rings.get p
    let xs := (List.range n).map fun i => s.readSample p (q.lastHead + BitVec.ofNat 16 i)
    let cmd := Instr.headWritten p (q.lastHead + BitVec.ofNat 16 n)
    ∃ t, exec cmd s = .next t ∧ Fed t p s.pool xs ∧
      (∀ (b : BufNo) (c : Capture), s.pool[b] = some c → OpenOn p c →
        let k := (takenOf c xs).length
        t.srr.readRange (bufferBase b) 7 = (if k = 0 then s.srr.readRange (bufferBase b) 7 else headerWords t.pool[b]) ∧
        t.srr.read (bufferBase b + 7) = s.srr.read (bufferBase b + 7) + BitVec.ofNat 16 (2 * k)) ∧
      (∀ a : Nat, (∀ (b : BufNo) (c : Capture), s.pool[b] = some c → OpenOn p c → takenOf c xs ≠ [] →
          ¬ (inHeader b a ∨ (placeAddress b (c.preGot + c.postGot) ≤ a ∧
            a < placeAddress b (c.preGot + c.postGot + (takenOf c xs).length)))) →
        a ≠ aRingState p → t.srr.read a = s.srr.read a) ∧
      Raises cmd s t (arrivalEvents p s.pool xs ++ advanceReport s p)

/-- An overwrite and a backward move of the head set GAP on every open capture of the ring; a backward move brings no
sample, so that nothing else of those captures changes, and closed captures and the other ring's stand as they were. Each
header is rewritten for GAP, with a frame change notice of a record's capture, and then, after an overwrite, the last
capacity's worth of samples arrive as any others do (R79 to R82, R86, R93); a report that the ring is LIVE comes last (R83,
log entry 24). -/
def Obligations.LostSamplesMarkGap : Prop :=
  ∀ (s : State) (p : Port) (h : Word), s.Running → s.QueuesWf →
    let q := s.rings.get p
    let advance := (h - q.lastHead).toNat
    q.capacity < advance →
    ∃ t, exec (.headWritten p h) s = .next t ∧
      (∀ (b : BufNo) (c : Capture), s.pool[b] = some c → ¬ OpenOn p c → t.pool[b] = some c) ∧
      (∀ b : BufNo, s.pool[b] = none → t.pool[b] = none) ∧
      (∀ (b : BufNo) (c : Capture), s.pool[b] = some c → OpenOn p c →
        ∃ c', t.pool[b] = some c' ∧ c'.gap = true ∧ c'.holder = c.holder ∧ c'.episode = c.episode ∧
          c.postGot ≤ c'.postGot ∧ (32767 < advance → c' = { c with gap := true })) ∧
      (s.CapturesWf →
        let marked (c : Capture) : Capture := if c.state = .opened ∧ c.ring = p then { c with gap := true } else c
        let pool := s.pool.map fun o => o.map marked
        let xs := if advance ≤ 32767 then
          (List.range q.capacity).map fun i => s.readSample p (h - BitVec.ofNat 16 q.capacity + BitVec.ofNat 16 i) else []
        Fed t p pool xs ∧
        (∀ (b : BufNo) (c : Capture), s.pool[b] = some c → OpenOn p c →
          t.srr.readRange (bufferBase b) 7 = headerWords t.pool[b] ∧
          t.srr.read (bufferBase b + 7) =
            s.srr.read (bufferBase b + 7) + BitVec.ofNat 16 (2 * (1 + (takenOf c xs).length))) ∧
        SrrOnly s t (fun a => a = aRingState p ∨
          ∃ b c, s.pool[b] = some c ∧ OpenOn p c ∧
            (inHeader b a ∨ (placeAddress b (c.preGot + c.postGot) ≤ a ∧
              a < placeAddress b (c.preGot + c.postGot + (takenOf c xs).length)))) ∧
        Raises (.headWritten p h) s t
          (changeNotices s (fun _ c => if c.state = .opened ∧ c.ring = p then some { c with gap := true } else none) ++
            arrivalEvents p pool xs ++ advanceReport s p))

/-- QUALIFICATION_ARRIVAL in RIDE: a ring E sample credits its gap since the previous one, at most 50 ticks, at 400 rpm or
more, and its time becomes the previous time; a ring A sample sets the last speed, raises the maximum and recomputes the
moving flag. Outside RIDE an arrival changes nothing (R137 to R140). -/
def Obligations.ArrivalsMeasureTheRide : Prop :=
  ∀ (s : State) (time : Time) (ch0 : Word), s.Running →
    (∀ p : Port, s.sup.mode ≠ .ride →
      exec (.qualificationArrival p time ch0) s = .next (s.begin (.qualificationArrival p time ch0))) ∧
    (s.sup.mode = .ride →
      (∃ t, exec (.qualificationArrival .e time ch0) s = .next t ∧
        t = { s with inFlight := t.inFlight, stores := t.stores, srr := t.srr, sup := t.sup } ∧
        Raises (.qualificationArrival .e time ch0) s t [] ∧
        SrrOnly s t (fun a => a = 0x0006) ∧
        t.srr.read 0x0006 =
          (if t.sup.engineRun = s.sup.engineRun then s.srr.read 0x0006 else BitVec.ofNat 16 t.sup.engineRun) ∧
        ∃ gap, (∀ u, s.sup.previousE = some u → gap = if u < time then time.toNat - u.toNat else 0) ∧
          (s.sup.previousE = none → gap = 0) ∧
          t.sup = { s.sup with
            previousE := some time,
            engineRun := if 400 ≤ ch0.toNat then min 65535 (s.sup.engineRun + min gap 50) else s.sup.engineRun }) ∧
      (∃ t, exec (.qualificationArrival .a time ch0) s = .next t ∧
        t = { s with inFlight := t.inFlight, stores := t.stores, srr := t.srr, sup := t.sup } ∧
        Raises (.qualificationArrival .a time ch0) s t [] ∧
        SrrOnly s t (fun a => a = 0x0007 ∨ a = 0x0008) ∧
        t.srr.read 0x0007 = (if s.sup.maxSpeed < ch0 then ch0 else s.srr.read 0x0007) ∧
        t.srr.read 0x0008 =
          (if t.sup.moving = s.sup.moving then s.srr.read 0x0008 else if t.sup.moving then 1 else 0) ∧
        t.sup = { s.sup with
          lastSpeed := ch0, maxSpeed := if s.sup.maxSpeed < ch0 then ch0 else s.sup.maxSpeed,
          moving := decide (48 ≤ ch0.toNat) || s.sup.ringAStalled }))

/-- RING_STATE_REPORT: in RIDE a report of ring A sets ring A stalled and recomputes the moving flag; a report of ring E,
or one outside RIDE, changes nothing (R139, R140). STALL_TIMER_EXPIRY: a LIVE ring whose timer has reached 50 is STALLED,
STALL is requested on its port and the supervisor told; any other ring is left as it is (R83): that an expiry taken after
its timer was stopped or started again changes nothing is the model's choice (log entry 16). -/
def Obligations.RingStatesReachTheSupervisor : Prop :=
  ∀ (s : State) (p : Port) (st : RingState), s.Running →
    (¬ (s.sup.mode = .ride ∧ p = .a) →
      exec (.ringStateReport p st) s = .next (s.begin (.ringStateReport p st))) ∧
    (s.sup.mode = .ride →
      ∃ t, exec (.ringStateReport .a st) s = .next t ∧
        t = { s with inFlight := t.inFlight, stores := t.stores, srr := t.srr, sup := t.sup } ∧
        t.sup = { s.sup with
          ringAStalled := decide (st = .stalled),
          moving := decide (48 ≤ s.sup.lastSpeed.toNat) || decide (st = .stalled) } ∧
        SrrOnly s t (fun a => a = 0x0008) ∧
        t.srr.read 0x0008 =
          (if t.sup.moving = s.sup.moving then s.srr.read 0x0008 else if t.sup.moving then 1 else 0) ∧
        Raises (.ringStateReport .a st) s t []) ∧
    (¬ ((s.rings.get p).state = .live ∧ (s.rings.get p).timer = some 50) →
      exec (.stallTimerExpiry p) s = .next (s.begin (.stallTimerExpiry p))) ∧
    ((s.rings.get p).state = .live → (s.rings.get p).timer = some 50 →
      ∃ t, exec (.stallTimerExpiry p) s = .next t ∧
        t = { s with inFlight := t.inFlight, stores := t.stores, srr := t.srr,
                     rings := s.rings.set p { s.rings.get p with state := .stalled, timer := none } } ∧
        SrrOnly s t (fun a => a = aRingState p) ∧ t.srr.read (aRingState p) = 2 ∧
        Raises (.stallTimerExpiry p) s t [.ringStateReport p .stalled, .latchRequest p ⟨.stall, none⟩])

/-- FCU_MODE_NOTICE: at the entry of RIDE both rings are LIVE with their timers at 0, which is the unit's part of step 4
of a START RIDE and is struck off it, the supervisor's step 5 being raised where no other part is left; when RIDE is left
both are QUIET and their timers stopped, and every change of state is reported (R83, R129, R145). RING_RESTART: the head
word, the last head and the held count are 0, the ring QUIET, and its open captures close SHORT with GAP, their headers
rewritten and no other (R104); that the head word reads 0 whatever the port has stored there since its RESTART is the
model's choice (log entry 29). -/
def Obligations.RingsFollowRideAndRestart : Prop :=
  ∀ s : State, s.Running →
    let reports (st : RingState) : List Instr := ([.e, .a] : List Port).filterMap fun p =>
      if (s.rings.get p).state = st then none else some (.ringStateReport p st)
    (∃ t, exec (.fcuModeNotice .left) s = .next t ∧ Raises (.fcuModeNotice .left) s t (reports .quiet) ∧
      t = { s with inFlight := t.inFlight, stores := t.stores, srr := t.srr, rings := t.rings } ∧
      SrrOnly s t (fun a => a = aRingState .e ∨ a = aRingState .a) ∧
      ∀ p : Port, t.rings.get p = { s.rings.get p with state := .quiet, timer := none } ∧
        t.srr.read (aRingState p) = if (s.rings.get p).state = .quiet then s.srr.read (aRingState p) else 0) ∧
    (∃ t, exec (.fcuModeNotice .entered) s = .next t ∧
      PartEnded (.fcuModeNotice .entered) s t (reports .live) (fun r => { r with rings := false }) ∧
      t = { s with inFlight := t.inFlight, stores := t.stores, srr := t.srr, rings := t.rings, handler := t.handler } ∧
      SrrOnly s t (fun a => a = aRingState .e ∨ a = aRingState .a) ∧
      ∀ p : Port, t.rings.get p = { s.rings.get p with state := .live, timer := some 0 } ∧
        t.srr.read (aRingState p) = if (s.rings.get p).state = .live then s.srr.read (aRingState p) else 1) ∧
    (∀ p : Port,
      let closes (_ : BufNo) (c : Capture) : Option Capture :=
        if c.state = .opened ∧ c.ring = p then some { c with state := .short, gap := true } else none
      ∃ t, exec (.ringRestart p) s = .next t ∧
        t = { s with inFlight := t.inFlight, stores := t.stores, srr := t.srr, pool := t.pool,
                     rings := s.rings.set p
                       { s.rings.get p with lastHead := 0, held := 0, state := .quiet, timer := none } } ∧
        t.srr.read (aHead p) = 0 ∧ t.srr.read (aRingState p) = 0 ∧ BuffersChanged s t closes ∧
        SrrOnly s t (fun a => a = aHead p ∨ a = aRingState p ∨
          ∃ b c, s.pool[b] = some c ∧ OpenOn p c ∧ inHeader b a) ∧
        Raises (.ringRestart p) s t
          ((if (s.rings.get p).state = .quiet then [] else [.ringStateReport p .quiet]) ++ changeNotices s closes))

/-! ### Frame Capture Unit (spec 05) -/

/-- What a newcomer's capture holds at its opening (R87, R90, R91): the last pre samples at or before T, the first post
samples above T, PRE-SHORT where pre samples are missing, and its state: COMPLETE with every post sample there, SHORT when
200 ticks have passed, else OPEN. -/
def Newcomer (s : State) (f : FaultNo) (ep : EpisodeId) (ring : Port) (pre post priority : BitVec 4) (c : Capture) :
    Prop :=
  let before := ((s.presentSamples ring).filter fun x => decide (x.time ≤ ep.time)).length
  let after := ((s.presentSamples ring).filter fun x => decide (ep.time < x.time)).length
  c.holder = .provisional ∧ c.fault = f ∧ c.episode = ep ∧ c.ring = ring ∧ c.priority = priority ∧
  c.preWanted = pre.toNat ∧ c.postWanted = post.toNat ∧ c.preGot = min pre.toNat before ∧
  c.postGot = min post.toNat after ∧ c.preShort = decide (c.preGot < c.preWanted) ∧ c.gap = false ∧
  c.state = (if c.postGot = c.postWanted then .complete
    else if 200 ≤ (s.sup.rideClock - ep.time).toNat then .short else .opened)

/-- The samples that stand in the newcomer's buffer: the last pre samples, oldest first, then the post samples in index
order (R90, R91). -/
def NewcomerSamples (s t : State) (b : BufNo) (ep : EpisodeId) (ring : Port) (c : Capture) : Prop :=
  let before := (s.presentSamples ring).filter fun x => decide (x.time ≤ ep.time)
  let after := (s.presentSamples ring).filter fun x => decide (ep.time < x.time)
  ∀ (k : Nat) (x : Sample), (before.drop (before.length - c.preGot) ++ after.take c.postGot)[k]? = some x →
    t.srr.readRange (placeAddress b k) 8 = x.words

/-- TRIGGER: every provisional capture of the fault that is still held is freed with a capture-released notice, its
header rewritten; then the lowest-numbered free buffer takes the newcomer, its samples are copied, its header is
rewritten, and capture-opened is sent; the other buffers stand as they were (R87, R90 to R92). -/
def Obligations.TriggerTakesTheLowestFreeBuffer : Prop :=
  ∀ (s : State) (f : FaultNo) (ep : EpisodeId) (ring : Port) (pre post priority : BitVec 4) (b : BufNo), s.Running →
    s.QueuesWf →
    let stale (o : Option Capture) : Bool :=
      (o.map fun c => decide (c.holder = .provisional) && decide (c.fault = f)).getD false
    LowestBuffer s (fun o => o = none ∨ stale o = true) b →
    ∃ t c, exec (.trigger f ep ring pre post priority) s = .next t ∧
      t = { s with inFlight := t.inFlight, stores := t.stores, srr := t.srr, pool := t.pool } ∧
      t.pool[b] = some c ∧
      (∀ b' : BufNo, b' ≠ b → t.pool[b'] = if stale s.pool[b'] then none else s.pool[b']) ∧
      Newcomer s f ep ring pre post priority c ∧ NewcomerSamples s t b ep ring c ∧
      SrrOnly s t (fun a => (bufferBase b ≤ a ∧ a < placeAddress b (samplesCounted t.pool[b])) ∨
        ∃ b', stale s.pool[b'] = true ∧ inHeader b' a) ∧
      (∀ b' : BufNo, b' ≠ b → stale s.pool[b'] = true → HeaderRewritten s t b') ∧
      t.srr.readRange (bufferBase b) 7 = headerWords t.pool[b] ∧
      t.srr.read (bufferBase b + 7) = s.srr.read (bufferBase b + 7) + (if stale s.pool[b] then 4 else 2) ∧
      Raises (.trigger f ep ring pre post priority) s t
        (((List.finRange 24).filterMap fun b' =>
          match s.pool[b'] with
          | some x => if stale (some x) then some (.captureReleased f b' x.episode) else none
          | none => none) ++ [.captureOpened f b ep])

/-- TRIGGER with the pool empty, and no provisional capture of the fault in it: the provisional capture of lowest priority
strictly below the newcomer's, of those the earliest, of those in the lowest buffer, is lost to the newcomer, and its
notice names the buffer; without one the newcomer's capture is lost, no buffer changes and the notice names none (R70,
R88, R89). -/
def Obligations.TriggerTakesOverOrLoses : Prop :=
  ∀ (s : State) (f : FaultNo) (ep : EpisodeId) (ring : Port) (pre post priority : BitVec 4), s.Running → s.QueuesWf →
    (∀ b : BufNo, s.pool[b] ≠ none ∧ ∀ c, s.pool[b] = some c → ¬ (c.holder = .provisional ∧ c.fault = f)) →
    let cmd := Instr.trigger f ep ring pre post priority
    let candidate (o : Option Capture) : Prop := ∃ c, o = some c ∧ c.holder = .provisional ∧ c.priority < priority
    ((∀ b : BufNo, ¬ candidate s.pool[b]) →
      ∃ t, exec cmd s = .next t ∧ t = { s with inFlight := t.inFlight, stores := [] } ∧
        Raises cmd s t [.captureLost f ⟨ep, none⟩]) ∧
    (∀ (b : BufNo) (v : Capture), s.pool[b] = some v → candidate (some v) →
      (∀ (b' : BufNo) (v' : Capture), s.pool[b'] = some v' → candidate (some v') →
        v.priority < v'.priority ∨ (v.priority = v'.priority ∧
          (v.episode.time < v'.episode.time ∨ (v.episode.time = v'.episode.time ∧ b ≤ b')))) →
      ∃ t c, exec cmd s = .next t ∧
        t = { s with inFlight := t.inFlight, stores := t.stores, srr := t.srr, pool := s.pool.set b (some c) } ∧
        Newcomer s f ep ring pre post priority c ∧ NewcomerSamples s t b ep ring c ∧
        SrrOnly s t (fun a => bufferBase b ≤ a ∧ a < placeAddress b (samplesCounted t.pool[b])) ∧
        HeaderRewritten s t b ∧
        Raises cmd s t [.captureLost v.fault ⟨v.episode, some b⟩, .captureOpened f b ep])

/-- CONFIRM_NOTICE makes the provisional capture of the episode one that awaits direction, its header unchanged;
ATTACH_DIRECTION gives such a capture to the record of the slot and answers with a frame change notice. Where no such
capture is held, the notice changes nothing and the direction is answered with a no-frame notice (R96, R98). -/
def Obligations.ConfirmedCaptureIsAttached : Prop :=
  ∀ (s : State) (f : FaultNo) (ep : EpisodeId) (i : SlotNo), s.Running →
    (∀ (b : BufNo) (c : Capture), LowestBuffer s (Holds .provisional f ep) b → s.pool[b] = some c →
      ∃ t, exec (.confirmNotice f ep) s = .next t ∧
        t = { s with inFlight := s.inFlight.erase (.confirmNotice f ep), stores := [],
                     pool := s.pool.set b (some { c with holder := .awaiting }) } ∧
        headerWords t.pool[b] = headerWords s.pool[b]) ∧
    ((∀ b : BufNo, ¬ Holds .provisional f ep s.pool[b]) →
      exec (.confirmNotice f ep) s = .next (s.begin (.confirmNotice f ep))) ∧
    (∀ (b : BufNo) (c : Capture), LowestBuffer s (Holds .awaiting f ep) b → s.pool[b] = some c →
      ∃ t, exec (.attachDirection f ep i) s = .next t ∧
        t = { s with inFlight := t.inFlight, stores := t.stores, srr := t.srr,
                     pool := s.pool.set b (some { c with holder := .record i }) } ∧
        SrrOnly s t (inHeader b) ∧ HeaderRewritten s t b ∧
        Raises (.attachDirection f ep i) s t [.frameChangeNotice i b f ep c.state c.preShort c.gap]) ∧
    ((∀ b : BufNo, ¬ Holds .awaiting f ep s.pool[b]) →
      ∃ t, exec (.attachDirection f ep i) s = .next t ∧ t = { s with inFlight := t.inFlight, stores := [] } ∧
        Raises (.attachDirection f ep i) s t [.noFrameNotice i f ep])

/-- The ends of a capture by an event that names it: an episode close, a discard direction, an entry-reset discard and a
buffer free return the buffer to the free pool, with its header rewritten as 0 and no notice; where the capture named is
not held, nothing changes (R97, R99, R100). -/
def Obligations.NamedCapturesAreFreed : Prop :=
  ∀ (s : State) (f : FaultNo) (ep : EpisodeId) (i : SlotNo) (b : BufNo) (account : Option FaultNo), s.Running →
    let Frees (c : Instr) : Prop :=
      ∃ t, exec c s = .next t ∧
        t = { s with inFlight := s.inFlight.erase c, stores := t.stores, srr := t.srr, pool := s.pool.set b none } ∧
        SrrOnly s t (inHeader b) ∧ HeaderRewritten s t b
    (LowestBuffer s (Holds .provisional f ep) b → Frees (.episodeClose f ep)) ∧
    ((∀ b' : BufNo, ¬ Holds .provisional f ep s.pool[b']) →
      exec (.episodeClose f ep) s = .next (s.begin (.episodeClose f ep))) ∧
    (LowestBuffer s (Holds .awaiting f ep) b → Frees (.discardDirection f ep)) ∧
    ((∀ b' : BufNo, ¬ Holds .awaiting f ep s.pool[b']) →
      exec (.discardDirection f ep) s = .next (s.begin (.discardDirection f ep))) ∧
    ((∃ c, s.pool[b] = some c ∧ c.holder = .provisional ∧ c.fault = f) → Frees (.entryResetDiscard f b)) ∧
    (¬ (∃ c, s.pool[b] = some c ∧ c.holder = .provisional ∧ c.fault = f) →
      exec (.entryResetDiscard f b) s = .next (s.begin (.entryResetDiscard f b))) ∧
    ((∃ c, s.pool[b] = some c ∧ c.holder = .record i) → Frees (.bufferFree i ⟨some b, account⟩)) ∧
    (¬ (∃ c, s.pool[b] = some c ∧ c.holder = .record i) →
      exec (.bufferFree i ⟨some b, account⟩) s = .next (s.begin (.bufferFree i ⟨some b, account⟩)))

/-- DEADLINE_EXPIRY: an OPEN capture whose window of 200 ticks has passed closes SHORT, with its header rewritten and a
notice if a record holds it; any other buffer is left as it is (R94, R95): that an expiry is judged by the ticks that have
passed when it is taken, and one that no longer stands changes nothing, is the model's choice (log entry 16). The events
that sweep the pool: a clear of a fault frees its provisional and awaiting captures, a buffer free that names none frees
what the slot's record holds, both without a notice; the ride-end event closes every OPEN capture SHORT, frees every
provisional one with a capture-released notice and reports the pool settled. Each close and each free rewrites the header,
so that of a provisional capture that was still OPEN twice, and no other header changes (R86, R100 to R102). -/
def Obligations.DeadlinesAndSweepsOfThePool : Prop :=
  ∀ (s : State) (f : FaultNo) (i : SlotNo) (account : Option FaultNo), s.Running →
    (∀ (b : BufNo) (c : Capture), s.pool[b] = some c → c.state = .opened →
      200 ≤ (s.sup.rideClock - c.episode.time).toNat →
      ∃ t, exec (.deadlineExpiry b) s = .next t ∧
        t = { s with inFlight := t.inFlight, stores := t.stores, srr := t.srr,
                     pool := s.pool.set b (some { c with state := .short }) } ∧
        SrrOnly s t (inHeader b) ∧ HeaderRewritten s t b ∧
        Raises (.deadlineExpiry b) s t (frameNotice b { c with state := .short })) ∧
    (∀ b : BufNo,
      (∀ c, s.pool[b] = some c → ¬ (c.state = .opened ∧ 200 ≤ (s.sup.rideClock - c.episode.time).toNat)) →
      ChangesNothing (.deadlineExpiry b) s) ∧
    let Sweeps (c : Instr) (gone : Capture → Prop) : Prop :=
      ∃ t, exec c s = .next t ∧
        t = { s with inFlight := s.inFlight.erase c, stores := t.stores, srr := t.srr, pool := t.pool } ∧
        (∀ b : BufNo,
          ((∃ x, s.pool[b] = some x ∧ gone x) → t.pool[b] = none ∧ HeaderRewritten s t b) ∧
          ((∀ x, s.pool[b] = some x → ¬ gone x) →
            t.pool[b] = s.pool[b] ∧ ∀ a, inHeader b a → t.srr.read a = s.srr.read a)) ∧
        SrrOnly s t (fun a => ∃ b x, s.pool[b] = some x ∧ gone x ∧ inHeader b a)
    Sweeps (.captureUnitClear f) (fun x => x.fault = f ∧ (x.holder = .provisional ∨ x.holder = .awaiting)) ∧
    Sweeps (.bufferFree i ⟨none, account⟩) (fun x => x.holder = .record i) ∧
    (∃ t, exec .fcuRideEndEvent s = .next t ∧
      t = { s with inFlight := t.inFlight, stores := t.stores, srr := t.srr, pool := t.pool } ∧
      (∀ b : BufNo, t.pool[b] = match s.pool[b] with
        | some c => if c.holder = .provisional then none
            else some { c with state := if c.state = .opened then .short else c.state }
        | none => none) ∧
      (∀ (b : BufNo) (c : Capture), s.pool[b] = some c →
        let rewrites := (if c.state = .opened then 1 else 0) + if c.holder = .provisional then 1 else 0
        rewrites ≠ 0 → HeaderRewrites s t b rewrites) ∧
      SrrOnly s t (fun a => ∃ b c, s.pool[b] = some c ∧ (c.state = .opened ∨ c.holder = .provisional) ∧ inHeader b a) ∧
      Raises .fcuRideEndEvent s t
        (changeNotices s (fun _ c => if c.state = .opened then some { c with state := .short } else none) ++
          provisionalReleases s ++ [.poolSettled]))

/-! ### Event Memory Manager (spec 06) -/

/-- The index list of any slots holds every non-FREE slot once and no other, in the order of R119: priority, last-confirm
ride number and last-confirm time, each highest first, then slot number, lowest first. -/
def Obligations.IndexListFollowsTheOrder : Prop :=
  ∀ slots : Vector (Option Record) 16,
    (∀ i : SlotNo, i ∈ indexOf slots ↔ slots[i] ≠ none) ∧ (indexOf slots).Nodup ∧
    (indexOf slots).Pairwise fun k j =>
      ∀ (q r : Record), slots[k] = some q → slots[j] = some r →
        r.priority < q.priority ∨ (r.priority = q.priority ∧
          (r.lastRide < q.lastRide ∨ (r.lastRide = q.lastRide ∧
            (r.lastConfirm < q.lastConfirm ∨ (r.lastConfirm = q.lastConfirm ∧ k < j)))))

/-- CONFIRM_EVENT of a fault that has a record updates that record and no other, settles its capture by an attach or a
discard direction, sends the slot notice, and hands the change on (R108 to R110). -/
def Obligations.ConfirmUpdatesTheRecord : Prop :=
  ∀ (s : State) (f : FaultNo) (ep : EpisodeId) (time : Time) (priority : BitVec 4) (lamp : LampField)
    (pattern : Pattern) (ringNone : Bool) (i : SlotNo) (r : Record), s.Running → s.EventMemoryWf →
    s.slots[i] = some r → r.fault = f →
    let cmd := Instr.confirmEvent f ep time priority lamp pattern ringNone
    let takes : Bool :=
      decide (r.frame = none) && (decide (r.frameStatus = .none) || decide (r.frameStatus = .missed)) &&
        decide (r.awaited = none)
    ∃ t, exec cmd s = .next t ∧
      t = { s with
        inFlight := t.inFlight, stores := t.stores, srr := t.srr, index := t.index,
        slots := s.slots.set i (some
          { r with
            state := .active, occurrence := min 255 (r.occurrence + 1), lastRide := s.sup.rideNumber,
            lastConfirm := time, age := 0, clean := 0, priority := priority, lamp := lamp, pattern := pattern,
            lampLatch := r.lampLatch || decide (lamp ≠ .none), episodeFlag := true,
            awaited := if ringNone = false ∧ takes = true then some ep else r.awaited }) } ∧
      EventViewsFollow s t ∧ SrrOnly s t inEventViews ∧
      Raises cmd s t
        ((if ringNone then [] else if takes then [.attachDirection f ep i] else [.discardDirection f ep]) ++
          [.slotNotice f (some i) (some false)] ++ handedOn s (some f) t.slots)

/-- CONFIRM_EVENT of a fault without a record: the lowest-numbered FREE slot takes the new record; with none, the record
that stands last in the index list of the STORED ones of that priority or below, else of the ACTIVE ones strictly below
it, is displaced; with no such record the confirm is not stored and no slot changes (R111 to R114, R116). A displacement
rewrites the index list and requests STORE even where the new record stands at its victim's place (log entry 23). -/
def Obligations.ConfirmStoresOrDisplaces : Prop :=
  ∀ (s : State) (f : FaultNo) (ep : EpisodeId) (time : Time) (priority : BitVec 4) (lamp : LampField)
    (pattern : Pattern) (ringNone : Bool), s.Running → s.EventMemoryWf →
    (∀ (i : SlotNo) (r : Record), s.slots[i] = some r → r.fault ≠ f) →
    let cmd := Instr.confirmEvent f ep time priority lamp pattern ringNone
    let Stores (i : SlotNo) (removed : List Instr) : Prop :=
      ∃ t, exec cmd s = .next t ∧
        t = { s with
          inFlight := t.inFlight, stores := t.stores, srr := t.srr, index := t.index,
          slots := s.slots.set i (some
            { state := .active, fault := f, priority := priority, lamp := lamp, pattern := pattern, occurrence := 1,
              age := 0, lampLatch := decide (lamp ≠ .none), clean := 0, firstRide := s.sup.rideNumber,
              lastRide := s.sup.rideNumber, firstFail := ep.time, lastConfirm := time, frame := none,
              frameStatus := .none, preShort := false, gap := false, episodeFlag := true,
              awaited := if ringNone then none else some ep }) } ∧
        EventViewsFollow s t ∧ SrrOnly s t inEventViews ∧
        Raises cmd s t
          (removed ++ (if ringNone then [] else [.attachDirection f ep i]) ++ [.slotNotice f (some i) (some false)] ++
            handedOn s (some f) t.slots)
    let stored (r : Record) : Prop := r.state = .stored ∧ r.priority ≤ priority
    let active (r : Record) : Prop := r.state = .active ∧ r.priority < priority
    let lastOfThose (i : SlotNo) (which : Record → Prop) : Prop :=
      ∃ before after, s.index = before ++ i :: after ∧ (∀ r, s.slots[i] = some r → which r) ∧
        ∀ j ∈ after, ∀ r, s.slots[j] = some r → ¬ which r
    (∀ i : SlotNo, s.slots[i] = none → (∀ j : SlotNo, j < i → s.slots[j] ≠ none) → Stores i []) ∧
    ((∀ i : SlotNo, s.slots[i] ≠ none) →
      (∀ (i : SlotNo) (r : Record), s.slots[i] = some r → lastOfThose i stored →
        Stores i (removals (some f) i r)) ∧
      ((∀ (j : SlotNo) (r : Record), s.slots[j] = some r → ¬ stored r) →
        (∀ (i : SlotNo) (r : Record), s.slots[i] = some r → lastOfThose i active →
          Stores i (removals (some f) i r)) ∧
        ((∀ (j : SlotNo) (r : Record), s.slots[j] = some r → ¬ active r) →
          ∃ t, exec cmd s = .next t ∧ t = { s with inFlight := t.inFlight, stores := [] } ∧
            Raises cmd s t
              ((if ringNone then [] else [.discardDirection f ep]) ++ [.slotNotice f none (some true)]))))

/-- HEAL clears the episode flag of the fault's record and recomputes its state. A frame change notice that belongs to the
record of the slot sets its frame reference, status and flags and marks the slot dirty; a no-frame notice that is its
awaited answer sets MISSED. Without such a record each of the three changes nothing (R86, R115, R118). That a notice which
belongs marks the slot dirty even where no field of the view moved is the model's reading (log entry 11). -/
def Obligations.HealsAndFrameNotices : Prop :=
  ∀ (s : State) (i : SlotNo), s.Running → s.EventMemoryWf →
    (∀ r, s.slots[i] = some r →
      ∃ t, exec (.heal r.fault) s = .next t ∧
        t = { s with
          inFlight := t.inFlight, stores := t.stores, srr := t.srr,
          slots := s.slots.set i (some
            { r with episodeFlag := false, state := if r.lampLatch then .active else .stored }) } ∧
        EventViewsFollow s t ∧ SrrOnly s t inEventViews ∧
        Raises (.heal r.fault) s t (if r.state = .active ∧ r.lampLatch = false then [.dirtyMark (.slot i)] else [])) ∧
    (∀ f : FaultNo, (∀ (j : SlotNo) (r : Record), s.slots[j] = some r → r.fault ≠ f) → ChangesNothing (.heal f) s) ∧
    (∀ (b : BufNo) (f : FaultNo) (ep : EpisodeId) (st : CaptureState) (preShort gap : Bool),
      let cmd := Instr.frameChangeNotice i b f ep st preShort gap
      (∀ r, s.slots[i] = some r → r.fault = f → r.frame = some b ∨ r.awaited = some ep →
        ∃ t, exec cmd s = .next t ∧
          t = { s with
            inFlight := t.inFlight, stores := t.stores, srr := t.srr,
            slots := s.slots.set i (some
              { r with
                frame := some b, preShort := preShort, gap := gap,
                frameStatus := match st with | .opened => .capturing | .complete => .complete | .short => .short,
                awaited := if r.awaited = some ep then none else r.awaited }) } ∧
          EventViewsFollow s t ∧ SrrOnly s t inEventViews ∧ Raises cmd s t [.dirtyMark (.slot i)]) ∧
      ((∀ r, s.slots[i] = some r → ¬ (r.fault = f ∧ (r.frame = some b ∨ r.awaited = some ep))) →
        ChangesNothing cmd s)) ∧
    (∀ (f : FaultNo) (ep : EpisodeId),
      (∀ r, s.slots[i] = some r → r.fault = f → r.awaited = some ep →
        ∃ t, exec (.noFrameNotice i f ep) s = .next t ∧
          t = { s with
            inFlight := t.inFlight, stores := t.stores, srr := t.srr,
            slots := s.slots.set i (some { r with frameStatus := .missed, awaited := none }) } ∧
          EventViewsFollow s t ∧ SrrOnly s t inEventViews ∧
          Raises (.noFrameNotice i f ep) s t (if r.frameStatus = .missed then [] else [.dirtyMark (.slot i)])) ∧
      ((∀ r, s.slots[i] = some r → ¬ (r.fault = f ∧ r.awaited = some ep)) →
        ChangesNothing (.noFrameNotice i f ep) s))

/-- CLEAR_EVENT erases the fault's record, whichever slot holds it, and counts it. While other faults of the CLEAR FAULTS
remain, only the count moves; after the last one the request completes with the number erased, and the damaged latch is
cleared where the argument named all faults, then and not before (the model's choice, log entry 26). The number is stored as
counted, above 16 too where confirms refill slots meanwhile (the model's choice, log entry 31). A fault that no CLEAR FAULTS
waits for is not counted, the model's choice for an event that no run raises (log entry 13), and so is it that the erased
slot's change counter counts on and is not set to 0 (log entry 30) (R116, R126, R127). -/
def Obligations.ClearEventErasesAndCounts : Prop :=
  ∀ (s : State) (f : FaultNo), s.Running → s.EventMemoryWf →
    let cmd := Instr.clearEvent f
    let n := ((List.finRange 16).filter fun i => (s.slots[i].map fun r => decide (r.fault = f)).getD false).length
    ∃ t, exec cmd s = .next t ∧
      t = { s with inFlight := t.inFlight, stores := t.stores, srr := t.srr, slots := t.slots, index := t.index,
                   handler := t.handler, store := { s.store with damaged := t.store.damaged } } ∧
      (∀ i : SlotNo, t.slots[i] = match s.slots[i] with
        | some r => if r.fault = f then none else some r
        | none => none) ∧
      EventViewsFollow s t ∧
      let erased := (List.finRange 16).flatMap (fun i =>
        match s.slots[i] with
        | some r => if r.fault = f then removals (some f) i r else []
        | none => []) ++ handedOn s (some f) t.slots
      ((∀ c, s.handler.clear = some c → f ∉ c.remaining) →
        t.handler = s.handler ∧ t.store.damaged = s.store.damaged ∧ SrrOnly s t inEventViews ∧ Raises cmd s t erased) ∧
      (∀ c, s.handler.clear = some c → f ∈ c.remaining → c.remaining.erase f ≠ [] →
        t.handler = { s.handler with
          clear := some { c with remaining := c.remaining.erase f, erased := c.erased + n } } ∧
        t.store.damaged = s.store.damaged ∧ SrrOnly s t inEventViews ∧ Raises cmd s t erased) ∧
      (∀ c, s.handler.clear = some c → f ∈ c.remaining → c.remaining.erase f = [] →
        t.handler = { s.handler with clear := none, orphan := s.handler.orphan.set .e false } ∧
        t.store.damaged = (s.store.damaged && !c.all) ∧
        Completed s t .e 0 (BitVec.ofNat 16 (c.erased + n)) 0 0 ∧
        SrrOnly s t (fun a => inEventViews a ∨ requestWord .e a ∨ a = aWriter) ∧
        t.srr.read aWriter =
          (if c.all = true ∧ s.store.damaged = true then t.store.writerWord else s.srr.read aWriter) ∧
        Raises cmd s t (erased ++ completionEvents s .e))

/-- MANAGER_RIDE_END_EVENT: on a qualifying ride each record whose fault is defined ages, heals its lamp or is erased by
its fault's ride flags, its definition's aging limit and lamp-heal cycles; then every episode flag is cleared and every
state recomputed. The number erased is reported, and with the SUSPECT count in hand CLOSING is complete; that the change
counter of an erased slot's view counts on is the model's choice (log entry 30) (R121 to R123, R149). -/
def Obligations.RideEndRunsThePasses : Prop :=
  ∀ (s : State) (qualifying : Bool), s.Running →
    let cmd := Instr.managerRideEndEvent qualifying
    let ended (r : Record) : Option Record :=
      some { r with episodeFlag := false, state := if r.lampLatch then .active else .stored }
    ∃ t, exec cmd s = .next t ∧
      t = { s with
        inFlight := t.inFlight, stores := t.stores, srr := t.srr, slots := t.slots, index := t.index,
        sup := { s.sup with
          aged := some ((List.finRange 16).filter fun i => s.slots[i].isSome && t.slots[i].isNone).length } } ∧
      (∀ i : SlotNo, s.slots[i] = none → t.slots[i] = none) ∧
      (∀ (i : SlotNo) (r : Record), s.slots[i] = some r →
        let e := s.faults[r.fault]
        let age := min 250 (r.age + 1)
        (qualifying = false ∨ e.defn = none ∨ (e.confirmedRide = false ∧ e.tested = false) → t.slots[i] = ended r) ∧
        (qualifying = true → e.defn ≠ none → e.confirmedRide = true →
          t.slots[i] = ended { r with age := 0, clean := 0 }) ∧
        (∀ d, qualifying = true → e.defn = some d → e.confirmedRide = false → e.tested = true →
          (d.aging ≠ 0 → d.aging ≤ age → t.slots[i] = none) ∧
          (d.aging = 0 ∨ age < d.aging →
            (r.lampLatch = false → t.slots[i] = ended { r with age := age }) ∧
            (r.lampLatch = true → d.lampHeal ≤ r.clean + 1 →
              t.slots[i] = ended { r with age := age, lampLatch := false, clean := 0 }) ∧
            (r.lampLatch = true → r.clean + 1 < d.lampHeal →
              t.slots[i] = ended { r with age := age, clean := r.clean + 1 })))) ∧
      EventViewsFollow s t ∧ SrrOnly s t inEventViews ∧
      Raises cmd s t
        ((List.finRange 16).flatMap (fun i =>
          match s.slots[i], t.slots[i] with
          | some r, none => removals none i r
          | _, _ => []) ++ handedOn s none t.slots ++ (if s.sup.suspects = none then [] else [.closingComplete]))

/-! ### Requests at their owners (spec 02, 06, 07, 09) -/

/-- TAKE_DEFINITIONS. As dispatched, in CONFIG: the table and the mask words are locked, the entries are counted and the
definition of each valid one is held, the mask words are written back as the largest valid masks not above them and fix
the capacities, an overrun that this makes is repaired, and the level conditions are evaluated once, so that OVERRUN and
the causes of the edges are requested. In any other mode it is refused WRONG MODE. The build then
gives each fault in ascending number UNTESTED with its definition, or leaves it UNDEFINED, and tells the Lamp Driver; with
the last one records keep their slots with their states recomputed, and each defined fault that has a record is told its
slot (R22 to R26, R37, R44, R69). That the validation and the capacities are one event, each fault's build one more, and the
reconnection part of the last build is the model's reading (log entry 19). -/
def Obligations.TakeDefinitionsBuildsTheTable : Prop :=
  ∀ s : State, s.Running → s.QueuesWf → s.EventMemoryWf →
    (s.sup.mode ≠ .config → Refuses .takeDefinitions .e s 1) ∧
    (s.sup.mode = .config → s.handler.building = none →
      let verdict := readDefinition s.srr
      let valid (v : Verdict) : Bool := match v with | .valid _ => true | _ => false
      let maskOf (allowed : List Nat) (w : Word) : Nat := (allowed.filter fun m => decide (m ≤ w.toNat)).getLastD 15
      ∃ t raised, exec .takeDefinitions s = .next t ∧ Raises .takeDefinitions s t (raised ++ [.takeDefinitions]) ∧
        t = { s with inFlight := t.inFlight, stores := t.stores, srr := t.srr, queues := t.queues, rings := t.rings,
                     handler := { s.handler with fdtLocked := true, take := t.handler.take } } ∧
        (∃ k, t.handler.take = some k ∧ k.next = some 0 ∧
          (∀ f : FaultNo, k.found[f] = match verdict f with | .valid d => some d | _ => none) ∧
          k.valid = ((List.finRange 128).filter fun f => valid (verdict f)).length ∧
          k.invalid = ((List.finRange 128).filter fun f => decide (verdict f = .invalid)).length ∧
          k.lowestInvalid = (List.finRange 128).find? fun f => decide (verdict f = .invalid)) ∧
        (∀ p : Port,
          let q := s.queues.get p
          let q' := t.queues.get p
          let mask := maskOf [15, 31, 63, 127, 255, 511] (s.srr.read (aQueueMask p))
          let ringMask := maskOf [15, 31, 63] (s.srr.read (aRingMask p))
          q'.capacity = mask + 1 ∧ t.srr.read (aQueueMask p) = BitVec.ofNat 16 mask ∧
          t.rings.get p = { s.rings.get p with capacity := ringMask + 1, held := 0 } ∧
          t.srr.read (aRingMask p) = BitVec.ofNat 16 ringMask ∧ q'.takenTop = q.takenTop ∧ q'.drain = q.drain ∧
          q'.reported = q.reported ∧ LevelsHold s p q' ∧
          (q.occupancy ≤ mask + 1 →
            q'.bottom = q.bottom ∧ q'.occupancy = q.occupancy ∧ t.srr.read (aBottom p) = s.srr.read (aBottom p) ∧
            t.srr.read (aOccupancy p) = s.srr.read (aOccupancy p) ∧ .latchRequest p ⟨.overrun, none⟩ ∉ raised) ∧
          (mask + 1 < q.occupancy →
            q'.bottom = q.takenTop - BitVec.ofNat 16 (mask + 1) ∧ q'.occupancy = mask + 1 ∧
            t.srr.read (aBottom p) = q'.bottom ∧ t.srr.read (aOccupancy p) = BitVec.ofNat 16 (mask + 1) ∧
            .latchRequest p ⟨.overrun, none⟩ ∈ raised)) ∧
        (let requests (p : Port) : List Instr :=
           (if maskOf [15, 31, 63, 127, 255, 511] (s.srr.read (aQueueMask p)) + 1 < (s.queues.get p).occupancy then
             [.latchRequest p ⟨.overrun, none⟩] else []) ++
           levelRequests p (s.srr.read (aPolarity p)) (s.queues.get p) (t.queues.get p)
         raised = requests .e ++ requests .a) ∧
        SrrOnly s t (fun a => ∃ p, a ∈ [aQueueMask p, aRingMask p, aBottom p, aOccupancy p])) ∧
    ∀ (f : FaultNo) (k : TakeRun), s.sup.mode = .config → s.handler.take = some k → k.next = some f →
      let built : FaultEntry := { FaultEntry.reset with episode := (s.faults[f]).episode, defn := k.found[f] }
      let untested := (s.faults[f]).defn ≠ none ∧ (s.faults[f]).phase = .untested
      let lit : List Instr :=
        match k.found[f] with
        | some d => if d.lamp ≠ .none ∧ ¬ untested then [.demandNotice f] else []
        | none => []
      (∀ h : f.val + 1 < 128,
        ∃ t, exec .takeDefinitions s = .next t ∧
          t = { s with inFlight := t.inFlight, stores := t.stores, srr := t.srr, faults := s.faults.set f built,
                       handler := { s.handler with take := some { k with next := some ⟨f.val + 1, h⟩ } } } ∧
          FaultViewKept s t f ∧ SrrOnly s t (inFaultView f) ∧
          Raises .takeDefinitions s t (lit ++ [.takeDefinitions])) ∧
      (f.val = 127 →
        ∃ t, exec .takeDefinitions s = .next t ∧
          t = { s with inFlight := t.inFlight, stores := t.stores, srr := t.srr, faults := s.faults.set f built,
                       slots := t.slots, index := t.index,
                       handler := { s.handler with take := some { k with next := none } } } ∧
          (∀ i : SlotNo, t.slots[i] = s.slots[i].map fun r =>
            { r with state := if r.episodeFlag || r.lampLatch then .active else .stored }) ∧
          FaultViewKept s t f ∧ EventViewsFollow s t ∧ SrrOnly s t (fun a => inFaultView f a ∨ inEventViews a) ∧
          Raises .takeDefinitions s t
            (lit ++ ((List.finRange 16).filterMap fun i =>
              match s.slots[i] with
              | some r => if (t.faults[r.fault]).defn = none then none
                  else some (.slotNotice r.fault (some i) (some false))
              | none => none) ++ handedOn s none t.slots ++ [.takeDefinitionsBuildDone]))

/-- RETURN_TO_CONFIG, START_RIDE and END_RIDE at the Ride Supervisor, as dispatched. Outside the mode that accepts it each
is refused WRONG MODE. In IDLE the first makes every fault UNDEFINED, frees the provisional captures, the headers of their
buffers rewritten and no other, empties queues and rings, releases the lock of the table and completes in CONFIG, with a
demand notice of every defined fault that has a lamp and a capture-released notice of every capture freed; that its DONE
does not wait for the Lamp Driver to take its mode notice is the model's reading (log entry 8), and that the top and head
words read 0 though a store of theirs waits to be taken is its choice (log entry 29); the second counts the ride, starts
its qualification and its bulb check, resets every defined fault, enters RIDE and raises the two events of step 4; that
ring A stalled is clear until ring A's first report is the model's choice (log entry 32); in RIDE the third enters CLOSING
with each queue's drain count at its occupancy (R28, R40, R69, R73, R103, R136, R137, R142 to R147). -/
def Obligations.RequestsChangeTheMode : Prop :=
  ∀ s : State, s.Running →
    (s.sup.mode ≠ .idle → Refuses .returnToConfig .e s 1 ∧ (s.handler.start = none → Refuses .startRide .e s 1)) ∧
    (s.sup.mode ≠ .ride → Refuses .endRide .e s 1) ∧
    (s.sup.mode = .idle →
      ∃ t raised, exec .returnToConfig s = .next t ∧
        Raises .returnToConfig s t (raised ++ [.modeNotice] ++ completionEvents s .e) ∧
        t = { s with inFlight := t.inFlight, stores := t.stores, srr := t.srr, queues := t.queues, rings := t.rings,
                     faults := t.faults, pool := t.pool, sup := { s.sup with mode := .config },
                     handler := { s.handler with fdtLocked := false, orphan := s.handler.orphan.set .e false } } ∧
        (∀ f : FaultNo, t.faults[f] = { FaultEntry.reset with episode := (s.faults[f]).episode } ∧
          FaultViewKept s t f) ∧
        (∀ b : BufNo, t.pool[b] = match s.pool[b] with
          | some c => if c.holder = .provisional then none else some c
          | none => none) ∧
        (∀ (b : BufNo) (c : Capture), s.pool[b] = some c → c.holder = .provisional → HeaderRewritten s t b) ∧
        (∀ p : Port,
          let q' := t.queues.get p
          q' = { s.queues.get p with takenTop := 0, bottom := 0, occupancy := 0, almostEmpty := q'.almostEmpty,
                                     almostFull := q'.almostFull } ∧ LevelsHold s p q' ∧
          t.rings.get p = { s.rings.get p with lastHead := 0, held := 0, state := .quiet, timer := none } ∧
          t.srr.read (aTop p) = 0 ∧ t.srr.read (aBottom p) = 0 ∧ t.srr.read (aOccupancy p) = 0 ∧
          t.srr.read (aHead p) = 0 ∧
          t.srr.read (aRingState p) = if (s.rings.get p).state = .quiet then s.srr.read (aRingState p) else 0) ∧
        (∀ (p : Port) (c : Cause) (account : Option FaultNo), .latchRequest p ⟨c, account⟩ ∉ raised) ∧
        (let demands : List Instr := (List.finRange 128).filterMap fun f =>
           match (s.faults[f]).defn with
           | some d => if d.lamp = .none then none else some (.demandNotice f)
           | none => none
         let quiets (p : Port) : List Instr :=
           if (s.rings.get p).state = .quiet then [] else [.ringStateReport p .quiet]
         raised = demands ++ provisionalReleases s ++ quiets .e ++ quiets .a) ∧
        t.srr.read aMode = 1 ∧ Completed s t .e 0 0 0 0 ∧
        SrrOnly s t (fun a => a = aMode ∨ requestWord .e a ∨ (∃ f, inFaultView f a) ∨
          (∃ b c, s.pool[b] = some c ∧ c.holder = .provisional ∧ inHeader b a) ∨
          ∃ p, a ∈ [aTop p, aBottom p, aOccupancy p, aHead p, aRingState p])) ∧
    (s.sup.mode = .idle → s.handler.start = none →
      let number : Word := if s.sup.rideNumber = 65535 then 65535 else s.sup.rideNumber + 1
      ∃ t, exec .startRide s = .next t ∧
        t = { s with
          inFlight := t.inFlight, stores := t.stores, srr := t.srr, faults := t.faults,
          sup := { s.sup with
            mode := .ride, rideNumber := number, engineRun := 0, previousE := none, maxSpeed := 0, lastSpeed := 0,
            ringAStalled := false, moving := false, bulb := some (s.sup.rideClock + 200), absReady := false },
          handler := { s.handler with fdtLocked := false, start := some { rings := true, lamps := true } } } ∧
        (∀ f : FaultNo, FaultViewKept s t f ∧
          t.faults[f] = if (s.faults[f]).defn = none then s.faults[f] else
            { s.faults[f] with
              phase := .untested, acc := 0, tested := false, confirmedRide := false, trigger := none, capture := none,
              captureLost := false, unstored := false }) ∧
        t.srr.read aRideNumber = number ∧ t.srr.read aEngineRun = 0 ∧ t.srr.read aMaxSpeed = 0 ∧
        t.srr.read aMoving = 0 ∧ t.srr.read aAbsReady = 0 ∧ t.srr.read aMode = 3 ∧
        SrrOnly s t (fun a => a ∈ [aMode, aRideNumber, aEngineRun, aMaxSpeed, aMoving, aAbsReady] ∨
          ∃ f, inFaultView f a) ∧
        let resets : List Instr := (List.finRange 128).flatMap fun f =>
          match (s.faults[f]).defn with
          | some d =>
            let discards : List Instr := match (s.faults[f]).capture with | some b => [.entryResetDiscard f b] | none => []
            if (s.faults[f]).phase ≠ .untested ∧ d.lamp ≠ .none then discards ++ [.demandNotice f] else discards
          | none => []
        let ready : List Instr := if s.sup.absReady then [.absReadyChangeNotice] else []
        let last : List Instr := [.modeNotice, .fcuModeNotice .entered, .rideStartStep]
        Raises .startRide s t (.dirtyMark .header :: (ready ++ resets ++ last))) ∧
    (s.sup.mode = .ride →
      ∃ t, exec .endRide s = .next t ∧
        t = { s with
          inFlight := t.inFlight, stores := t.stores, srr := t.srr, queues := t.queues,
          sup := { s.sup with mode := .closing, drained := { e := false, a := false }, aged := none, suspects := none },
          handler := { s.handler with fdtLocked := false } } ∧
        (∀ p : Port, t.queues.get p =
          { s.queues.get p with drain := (s.queues.get p).occupancy,
                                reported := decide ((s.queues.get p).occupancy = 0) }) ∧
        t.srr.read aMode = 4 ∧ SrrOnly s t (fun a => a = aMode) ∧
        let drained (p : Port) : List Instr := if (s.queues.get p).occupancy = 0 then [.queueDrained p] else []
        Raises .endRide s t (.modeNotice :: .fcuModeNotice .left :: (drained .e ++ drained .a)))

/-- The work that follows an accepted request. In CLOSING the settled pool raises the ride-end event with the qualifying
judgement and asks for the SUSPECT count; with both counts in hand CLOSING_COMPLETE sets IDLE and writes the result. The
end of the build sets IDLE and writes the counts. A START RIDE whose parts of step 4 have both ended completes, in the
START_RIDE that the last of them raised, with the ride number, and not before; that this is still its take, and that DONE of
each request stands without waiting for the Lamp Driver to have taken its mode notice, is the model's reading (log entry 8)
(R27, R75, R141, R145, R149, R190). -/
def Obligations.LongRequestsComplete : Prop :=
  ∀ s : State, s.Running →
    let qualified := decide (6000 ≤ s.sup.engineRun) && decide (320 ≤ s.sup.maxSpeed.toNat)
    (s.sup.mode = .closing →
      ∃ t, exec .poolSettled s = .next t ∧
        t = { s with inFlight := t.inFlight, stores := [], sup := { s.sup with qualified := qualified } } ∧
        Raises .poolSettled s t [.managerRideEndEvent qualified, .suspectCount]) ∧
    (s.sup.mode ≠ .closing → ChangesNothing .poolSettled s ∧ ChangesNothing .closingComplete s) ∧
    (∃ t, exec .suspectCount s = .next t ∧
      t = { s with
        inFlight := t.inFlight, stores := [],
        sup := { s.sup with
          suspects := some ((List.finRange 128).filter fun f =>
            decide ((s.faults[f]).defn ≠ none) && decide ((s.faults[f]).phase = .suspect)).length } } ∧
      Raises .suspectCount s t (if s.sup.aged = none then [] else [.closingComplete])) ∧
    (∀ n m : Nat, s.sup.mode = .closing → s.sup.aged = some n → s.sup.suspects = some m →
      ∃ t, exec .closingComplete s = .next t ∧
        t = { s with
          inFlight := t.inFlight, stores := t.stores, srr := t.srr,
          sup := { s.sup with mode := .idle, aged := none, suspects := none },
          handler := { s.handler with fdtLocked := false, orphan := s.handler.orphan.set .e false } } ∧
        t.srr.read aMode = 2 ∧
        Completed s t .e 0 (if s.sup.qualified then 1 else 0) (BitVec.ofNat 16 n) (BitVec.ofNat 16 m) ∧
        SrrOnly s t (fun a => a = aMode ∨ requestWord .e a) ∧
        Raises .closingComplete s t (.modeNotice :: completionEvents s .e)) ∧
    (s.sup.aged = none ∨ s.sup.suspects = none → ChangesNothing .closingComplete s) ∧
    (∀ k, s.handler.take = some k → s.sup.mode = .config →
      ∃ t, exec .takeDefinitionsBuildDone s = .next t ∧
        t = { s with
          inFlight := t.inFlight, stores := t.stores, srr := t.srr, sup := { s.sup with mode := .idle },
          handler := { s.handler with fdtLocked := false, take := none, orphan := s.handler.orphan.set .e false } } ∧
        t.srr.read aMode = 2 ∧
        Completed s t .e 0 (BitVec.ofNat 16 k.valid) (BitVec.ofNat 16 k.invalid)
          (match k.lowestInvalid with | some f => BitVec.ofNat 16 f.val | none => 0x00FF) ∧
        SrrOnly s t (fun a => a = aMode ∨ requestWord .e a) ∧
        Raises .takeDefinitionsBuildDone s t (.modeNotice :: completionEvents s .e)) ∧
    (s.handler.take = none ∨ s.sup.mode ≠ .config → ChangesNothing .takeDefinitionsBuildDone s) ∧
    (∀ r, s.handler.start = some r →
      (r.rings = true ∨ r.lamps = true → ChangesNothing .startRide s) ∧
      (r.rings = false → r.lamps = false →
        ∃ t, exec .startRide s = .next t ∧
          t = { s with
            inFlight := t.inFlight, stores := t.stores, srr := t.srr,
            handler := { s.handler with start := none, orphan := s.handler.orphan.set .e false } } ∧
          Completed s t .e 0 s.sup.rideNumber 0 0 ∧ SrrOnly s t (requestWord .e) ∧
          Raises .startRide s t (completionEvents s .e)))

/-- CLEAR_FAULTS at its owner: refused WRONG MODE, BAD ARGUMENT or MOVING by the first check that fails, in that order;
accepted, a clear of every fault concerned is raised at the qualifier in ascending fault number. ABS_READY: refused WRONG
MODE outside RIDE; in RIDE it sets the flag, with result word 0 as 1, or finds it set, with 0 (R125, R126, R177). -/
def Obligations.ClearFaultsAndAbsReadyAreChecked : Prop :=
  ∀ (s : State) (argument : Word), s.Running →
    let clears := s.sup.mode = .idle ∨ s.sup.mode = .ride
    let known := argument.toNat < 128 ∨ argument = 0x00FF
    let moves := s.sup.mode = .ride ∧ s.sup.moving = true
    (¬ clears → Refuses (.clearFaults argument) .e s 1) ∧
    (clears → ¬ known → Refuses (.clearFaults argument) .e s 2) ∧
    (clears → known → moves → Refuses (.clearFaults argument) .e s 4) ∧
    (clears → known → ¬ moves →
      let subjects := (List.finRange 128).filter fun f => decide (argument = 0x00FF) || decide (f.val = argument.toNat)
      ∃ t, exec (.clearFaults argument) s = .next t ∧
        t = { s with
          inFlight := t.inFlight, stores := [],
          handler := { s.handler with
            clear := some { remaining := subjects, erased := 0, all := decide (argument = 0x00FF) } } } ∧
        Raises (.clearFaults argument) s t (subjects.map .qualifierClear)) ∧
    (s.sup.mode ≠ .ride → Refuses .absReady .a s 1) ∧
    (s.sup.mode = .ride →
      ∃ t, exec .absReady s = .next t ∧
        t = { s with inFlight := t.inFlight, stores := t.stores, srr := t.srr, sup := { s.sup with absReady := true },
                     handler := { s.handler with orphan := s.handler.orphan.set .a false } } ∧
        Completed s t .a 0 (if s.sup.absReady then 0 else 1) 0 0 ∧
        SrrOnly s t (fun a => requestWord .a a ∨ a = aAbsReady) ∧
        t.srr.read aAbsReady = (if s.sup.absReady then s.srr.read aAbsReady else 1) ∧
        Raises .absReady s t
          ((if s.sup.absReady then [] else [.absReadyChangeNotice]) ++ completionEvents s .a))

/-! ### Request Handler and Attention Unit (spec 10) -/

/-- A POSTED request is taken when its port has no orphan running: TAKEN is stored, and the request goes to its owner, or
is refused NOT PERMITTED or BAD ARGUMENT by its code; a TAKE DEFINITIONS taken in CONFIG locks the table (log entry 9). A
release changes nothing. A restart of the port stores IDLE, and a TAKEN request is orphaned; that a post made after RESTART
and before the restart event is withdrawn too is the model's choice (log entry 27) (R23, R189, R191 to R193). -/
def Obligations.RequestsAreTakenAndRestarted : Prop :=
  ∀ (s : State) (p : Port), s.Running →
    let state := s.srr.read (aRequest p)
    let code := s.srr.read (aCode p)
    let owner : Option Instr :=
      match p, code.toNat with
      | .e, 1 => some .takeDefinitions
      | .e, 2 => some .returnToConfig
      | .e, 3 => some .startRide
      | .e, 4 => some .endRide
      | .e, 5 => some (.clearFaults (s.srr.read (aArg0 p)))
      | .a, 6 => some .absReady
      | _, _ => none
    (∀ cmd ∈ [Instr.requestPosted p, Instr.waitingRequestTake p],
      (¬ (state = 1 ∧ s.handler.orphan.get p = false) → ChangesNothing cmd s) ∧
      (state = 1 → s.handler.orphan.get p = false →
        (∀ c, owner = some c →
          ∃ t, exec cmd s = .next t ∧
            t = { s with
              inFlight := t.inFlight, stores := t.stores, srr := t.srr,
              handler := { s.handler with
                fdtLocked := s.handler.fdtLocked ||
                  (decide (c = .takeDefinitions) && decide (s.sup.mode = .config)) } } ∧
            t.srr.read (aRequest p) = 2 ∧ SrrOnly s t (fun a => a = aRequest p) ∧ Raises cmd s t [c]) ∧
        (owner = none → 1 ≤ code.toNat → code.toNat ≤ 6 → Refuses cmd p s 3) ∧
        (code.toNat = 0 ∨ 6 < code.toNat → Refuses cmd p s 2))) ∧
    ChangesNothing (.requestReleased p) s ∧
    (state = 0 → ChangesNothing (.requestRestart p) s) ∧
    (state ≠ 0 →
      ∃ t, exec (.requestRestart p) s = .next t ∧
        t = { s with
          inFlight := s.inFlight.erase (.requestRestart p), stores := t.stores, srr := t.srr,
          handler := { s.handler with
            orphan := s.handler.orphan.set p (s.handler.orphan.get p || decide (state = 2)) } } ∧
        t.srr.read (aRequest p) = 0 ∧ SrrOnly s t (fun a => a = aRequest p))

/-- The Attention Unit. A latch request adds a cause to the latched set if the enable set that the unit holds has it, and is
dropped otherwise; a mask change of the enable set takes the value its event carries, removes the causes no longer enabled
and always computes the top cause, one of the polarity set computes it alone; an acknowledgement removes the causes it
names; a restart empties the sets. A change of the set brings the top cause and the attention line with it; an event that
changes no set stores nothing (R180 to R186). That a mask change applies the value its event carries, and stores it where
no later store of the word is in flight, is the model's choice (log entry 22). -/
def Obligations.AttentionFollowsItsSets : Prop :=
  ∀ (s : State) (p : Port), s.held = false →
    let latched := s.srr.read (aLatched p)
    let enabled := s.enables.get p
    let Becomes (c : Instr) (v enables' : Word) (shown : Nat → Prop) : Prop :=
      ∃ t, exec c s = .next t ∧
        t = { s with inFlight := s.inFlight.erase c, stores := t.stores, srr := t.srr,
                     enables := s.enables.set p enables' } ∧
        t.srr.read (aLatched p) = v ∧ TopShows t p ∧ t.attentionLine p = decide (v ≠ 0) ∧
        SrrOnly s t (fun a => a = aLatched p ∨ a = aTopCause p ∨ shown a) ∧
        ∀ (which : MaskWord) (w : Word), c = .maskChange p which w → ∀ a, shown a →
          t.srr.read a =
            if ∃ x, .maskChange p which x ∈ s.inFlight.erase c then s.srr.read a
            else w &&& if which = .enable then presentMask p else 0x0600
    (∀ c : Cause,
      let bit := causeCode c - 1
      ∀ account : Option FaultNo,
        (enabled.getLsbD bit = false ∨ latched.getLsbD bit = true → ChangesNothing (.latchRequest p ⟨c, account⟩) s) ∧
        (enabled.getLsbD bit = true → latched.getLsbD bit = false →
          Becomes (.latchRequest p ⟨c, account⟩) (latched ||| (1#16 <<< bit)) enabled fun _ => False)) ∧
    (∀ v : Word,
      Becomes (.maskChange p .enable v) (latched &&& (v &&& presentMask p)) (v &&& presentMask p) (· = aEnable p) ∧
      Becomes (.maskChange p .polarity v) latched enabled (· = aPolarity p) ∧
      (latched &&& v = 0 → ChangesNothing (.acknowledgement p v) s) ∧
      (latched &&& v ≠ 0 → Becomes (.acknowledgement p v) (latched &&& ~~~v) enabled fun _ => False)) ∧
    (∃ t, exec (.attentionRestart p) s = .next t ∧
      t = { s with inFlight := s.inFlight.erase (.attentionRestart p), stores := t.stores, srr := t.srr,
                   enables := s.enables.set p 0 } ∧
      let words := [aEnable p, aPolarity p, aOrder p, aLatched p, aTopCause p]
      (∀ a ∈ words, t.srr.read a = 0) ∧ t.attentionLine p = false ∧ SrrOnly s t (fun a => a ∈ words))

/-! ### Clock and lamps (spec 07, spec 09) -/

/-- RIDE_CLOCK_TICK: the clock goes up by one, modulo 2 to the 32, and is stored low word first; in RIDE a LIVE ring's
stall timer counts, raising its expiry at 50; the deadlines and the bulb check that fall due raise theirs; a flash tick
follows. BULB_CHECK_EXPIRY stops a timer whose 200 ticks have passed and tells the Lamp Driver; any other time it changes
nothing, the model's guard for an expiry taken late (log entry 16) (R2, R83, R94, R134, R135, R142, R175). -/
def Obligations.TickRaisesTheExpiries : Prop :=
  ∀ s : State, s.held = false →
    (let now := s.sup.rideClock + 1
     let counts (p : Port) : Bool :=
       decide (s.sup.mode = .ride) && decide ((s.rings.get p).state = .live) &&
         ((s.rings.get p).timer.map fun n => decide (n < 50)).getD false
     let stalls (p : Port) : List Instr :=
       if counts p = true ∧ (s.rings.get p).timer = some 49 then [.stallTimerExpiry p] else []
     ∃ t, exec .rideClockTick s = .next t ∧
       t = { s with inFlight := t.inFlight, stores := [(0x0003, now.setWidth 16), (0x0004, (now >>> 16).setWidth 16)],
                    srr := t.srr, rings := t.rings, sup := { s.sup with rideClock := now } } ∧
       (∀ p : Port, t.rings.get p =
         { s.rings.get p with
           timer := if counts p then (s.rings.get p).timer.map (· + 1) else (s.rings.get p).timer }) ∧
       t.srr.read 0x0003 = now.setWidth 16 ∧ t.srr.read 0x0004 = (now >>> 16).setWidth 16 ∧
       SrrOnly s t (fun a => a = 0x0003 ∨ a = 0x0004) ∧
       Raises .rideClockTick s t
         (stalls .e ++ stalls .a ++
           ((List.finRange 24).filterMap fun b =>
             match s.pool[b] with
             | some c => if c.state = .opened ∧ c.episode.time + 200 = now then some (.deadlineExpiry b) else none
             | none => none) ++
           (if s.sup.bulb = some now then [.bulbCheckExpiry] else []) ++ [.flashTick])) ∧
    (∀ x, s.sup.bulb = some x → 200 ≤ (s.sup.rideClock - (x - 200)).toNat →
      ∃ t, exec .bulbCheckExpiry s = .next t ∧
        t = { s with inFlight := t.inFlight, stores := [], sup := { s.sup with bulb := none } } ∧
        Raises .bulbCheckExpiry s t [.bulbCheckExpiryNotice]) ∧
    ((∀ x, s.sup.bulb = some x → (s.sup.rideClock - (x - 200)).toNat < 200) → ChangesNothing .bulbCheckExpiry s)

/-- The demand of a lamp is the highest of the contributions that stand for it, and OFF without one: STEADY in START-UP
and CONFIG, in the bulb check, and for the ABS lamp in RIDE until ABS is ready; a fault's in RIDE; a latched record's in
every mode (R170). -/
def Obligations.DemandIsTheHighestContribution : Prop :=
  ∀ (s : State) (k : Lamp),
    let open' (e : FaultEntry) := e.phase = .confirmed ∨ e.phase = .recovering
    let Stands (x : Demand) : Prop :=
      (x = .steady ∧ (s.sup.mode = .startUp ∨ s.sup.mode = .config ∨ s.sup.bulb ≠ none ∨
        (k = .abs ∧ s.sup.mode = .ride ∧ s.sup.absReady = false))) ∨
      (∃ (f : FaultNo) (d : Definition), (s.faults[f]).defn = some d ∧ s.sup.mode = .ride ∧ lampHas d.lamp k = true ∧
        ((d.critical = true ∧ (open' s.faults[f] ∨ (s.faults[f]).phase = .suspect) ∧ x = .fast) ∨
          (d.critical = false ∧ open' s.faults[f] ∧ x = patternDemand d.pattern))) ∨
      (∃ (i : SlotNo) (r : Record), s.slots[i] = some r ∧ r.lampLatch = true ∧ lampHas r.lamp k = true ∧
        x = patternDemand r.pattern)
    (∀ x, Stands x → x.code ≤ (s.demandOf k).code) ∧ (s.demandOf k = .off ∨ Stands (s.demandOf k))

/-- The Lamp Driver: each notice recomputes the demand of the lamps it concerns and sets an output whose demand changed; a
flash tick counts the phase 0 to 199 and sets both outputs; the ride-start step restarts the phase, clears both short
latches, recomputes both lamps and sets both outputs at phase 0, that of a lamp whose demand and latch stand as they were
too (the model's choice, log entry 33), and as a part of step 4 of a START RIDE is struck off it, step 5 being raised
where no other part is left; an overcurrent sets the short latch, the output off, and, outside START-UP, requests LAMP,
once. A short lamp stays dark. That a demand notice taken when its fault is UNDEFINED recomputes no lamp is the model's
reading (log entry 17), and that the phase counts on across a wrap of the ride clock is its choice (log entry 36). A
changed lamp word is stored outside START-UP (R145, R169, R174 to R179). The record lamp notices
of a change name every lamp for which the record's contribution moved (R108). -/
def Obligations.LampsFollowTheirEvents : Prop :=
  (∀ (old new : Option Record) (k : Lamp), lampHas (lampsConcerned old new) k = false →
    recordContribution old k = recordContribution new k) ∧
  ∀ s : State, s.held = false →
    let lights (x : LampState) (phase : Nat) : Bool :=
      !x.short && (decide (x.demand = .steady) || (decide (x.demand = .slow) && decide (phase % 100 < 50)) ||
        (decide (x.demand = .fast) && decide (phase % 40 < 20)))
    let Shows (t : State) (phase : Nat) (lamp : Lamp → LampState) : Prop :=
      t.lamps.phase = phase ∧ (∀ k : Lamp, t.lamps.get k = lamp k) ∧
      SrrOnly s t (fun a => ∃ k, a = aLamp k ∧ t.lamps.get k ≠ s.lamps.get k ∧ s.sup.mode ≠ .startUp) ∧
      ∀ k : Lamp, t.lamps.get k ≠ s.lamps.get k → s.sup.mode ≠ .startUp → t.srr.read (aLamp k) = (t.lamps.get k).word
    let Sets (c : Instr) (phase : Nat) (lamp : Lamp → LampState) (raised : List Instr) : Prop :=
      ∃ t, exec c s = .next t ∧
        t = { s with inFlight := t.inFlight, stores := t.stores, srr := t.srr, lamps := t.lamps } ∧
        Shows t phase lamp ∧ Raises c s t raised
    let started (k : Lamp) : LampState :=
      let x : LampState := { demand := s.demandOf k, output := false, short := false }
      { x with output := lights x 0 }
    let recomputed (concerns : Lamp → Bool) (k : Lamp) : LampState :=
      let x := { s.lamps.get k with demand := s.demandOf k }
      if concerns k = true ∧ x.demand ≠ (s.lamps.get k).demand then { x with output := lights x s.lamps.phase }
      else s.lamps.get k
    (∀ f : FaultNo,
      let concerns (k : Lamp) : Bool := ((s.faults[f]).defn.map fun d => lampHas d.lamp k).getD false
      Sets (.demandNotice f) s.lamps.phase (recomputed concerns) []) ∧
    (∀ (field : LampField) (account : Option FaultNo),
      Sets (.recordLampNotice ⟨field, account⟩) s.lamps.phase (recomputed (lampHas field)) []) ∧
    Sets .modeNotice s.lamps.phase (recomputed fun _ => true) [] ∧
    Sets .bulbCheckExpiryNotice s.lamps.phase (recomputed fun _ => true) [] ∧
    Sets .absReadyChangeNotice s.lamps.phase (recomputed fun k => decide (k = .abs)) [] ∧
    (let phase := (s.lamps.phase + 1) % 200
     Sets .flashTick phase (fun k => { s.lamps.get k with output := lights (s.lamps.get k) phase }) []) ∧
    (∃ t, exec .rideStartStep s = .next t ∧
      t = { s with inFlight := t.inFlight, stores := t.stores, srr := t.srr, lamps := t.lamps, handler := t.handler } ∧
      PartEnded .rideStartStep s t [] (fun r => { r with lamps := false }) ∧ Shows t 0 started) ∧
    (∀ k : Lamp,
      ((s.lamps.get k).short = true → ChangesNothing (.overcurrentDetection k) s) ∧
      ((s.lamps.get k).short = false →
        Sets (.overcurrentDetection k) s.lamps.phase
          (fun j => if j = k then { s.lamps.get k with output := false, short := true } else s.lamps.get j)
          (if s.sup.mode = .startUp then [] else [.latchRequest .e ⟨.lamp, none⟩])))

/-! ### Record Store and part reset (spec 07, spec 08) -/

/-- What an image composed from `s` holds (R152, R153, R157): the header has the format mark and the ride number; a FREE
slot's image is 0 but for its check word; a record's image has the record's fields with the frame reference 0, and where
it holds a frame, the frame's header, its own change counter 0, and its samples; every image's words sum to 0xA55A; and
the load reads it back (R154, R165; log entry 12). -/
def Composed (s : State) (x : ImageId) (m : Mem) : Prop :=
  (m.readRange 0 (imageLength x)).foldl (· + ·) 0 = 0xA55A ∧
  (∀ a, imageLength x ≤ a → m.read a = 0) ∧
  match x with
  | .header => m.read 0 = 0x4B07 ∧ m.read 1 = s.sup.rideNumber ∧ readHeaderImage m = some s.sup.rideNumber
  | .slot i =>
    match s.slots[i] with
    | none => (∀ a, a ≠ 10 → m.read a = 0) ∧ readSlotImage m = .erased
    | some r =>
      (r.Wf → r.priority ≠ 0 →
        readSlotImage m = .record { r with frame := none, episodeFlag := false, awaited := none }) ∧
      m.readRange 0 10 = recordWords (some { r with frame := none }) ∧ (∀ a, 11 ≤ a → a < 32 → m.read a = 0) ∧
      match r.frame.bind fun b => s.pool[b].map fun c => (b, c) with
      | some (b, c) =>
        if r.frameStatus = .capturing ∨ r.frameStatus = .complete ∨ r.frameStatus = .short then
          m.readRange 32 8 = headerWords (some c) ++ [0] ∧
          (c.holder = .record i → c.fault = r.fault → r.frameStatus = captureFrameStatus c.state →
            captureOfImage m i { r with frame := none, episodeFlag := false, awaited := none } =
              some { c with priority := r.priority, episode := { number := 0, time := c.episode.time },
                            state := if c.state = .complete then .complete else .short }) ∧
          (∀ k, k < c.preGot + c.postGot → m.readRange (40 + 8 * k) 8 = s.srr.readRange (placeAddress b k) 8) ∧
          ∀ a, 40 + 8 * (c.preGot + c.postGot) ≤ a → m.read a = 0
        else ∀ a, 32 ≤ a → m.read a = 0
      | none => ∀ a, 32 ≤ a → m.read a = 0

/-- The Record Store: a mark joins the dirty set or, of the image in flight, sets its rewrite flag; with the writer idle
and SUPPLY-LOW low a write of the first dirty image in the order of R156 starts, composed whole; a completed image leaves
the set unless it was marked again, and SAVED is requested when that empties the set; the store follows SUPPLY-LOW in
every mode, and stores its word at a change outside START-UP (R151, R132, R155 to R159); that it follows the level while
the part is held in reset too, and stores no word then, is the model's choice (log entry 15). That a frame is read back
from its image with episode number 0 and the record's priority is the model's choice (log entry 12). -/
def Obligations.WriterWritesDirtyImages : Prop :=
  (∀ s : State, s.Running → s.CapturesWf →
    let dirtyWord (d : List ImageId) : Word := BitVec.ofNat 16 d.length
    (∀ x : ImageId,
      let inFlight := ∃ w, s.store.writing = some w ∧ w.image = x
      (∀ w, s.store.writing = some w → w.image = x →
        ∃ t, exec (.dirtyMark x) s = .next t ∧
          t = { s with inFlight := s.inFlight.erase (.dirtyMark x), stores := [],
                       store := { s.store with writing := some { w with rewrite := true } } }) ∧
      (¬ inFlight → x ∈ s.store.dirty → ChangesNothing (.dirtyMark x) s) ∧
      (¬ inFlight → x ∉ s.store.dirty →
        ∃ t, exec (.dirtyMark x) s = .next t ∧
          t = { s with inFlight := s.inFlight.erase (.dirtyMark x), stores := t.stores, srr := t.srr,
                       store := { s.store with dirty := s.store.dirty ++ [x] } } ∧
          t.srr.read aDirty = dirtyWord t.store.dirty ∧ SrrOnly s t (fun a => a = aDirty))) ∧
    (let stands (st : RecordState) (i : SlotNo) : Bool := (s.slots[i].map fun r => decide (r.state = st)).getD false
     let order : List ImageId :=
       .header :: ((s.index.filter (stands .active) ++ s.index.filter (stands .stored) ++
         (List.finRange 16).filter fun i => decide (s.slots[i] = none)).map .slot)
     let choice := order.find? fun x => decide (x ∈ s.store.dirty)
     (s.store.writing ≠ none ∨ s.store.supplyLow = true ∨ choice = none → ChangesNothing .writeStart s) ∧
     (s.store.writing = none → s.store.supplyLow = false → ∀ x, choice = some x →
       ∃ t m, exec .writeStart s = .next t ∧
         t = { s with inFlight := s.inFlight.erase .writeStart, stores := t.stores, srr := t.srr,
                      store := { s.store with writing := some { image := x, content := m, rewrite := false } } } ∧
         Composed s x m ∧ t.srr.read aWriter = (if s.store.damaged then 3 else 1) ∧ SrrOnly s t (fun a => a = aWriter))) ∧
    (s.store.writing = none → ChangesNothing .writeCompletion s) ∧
    (∀ w, s.store.writing = some w →
      ∃ t, exec .writeCompletion s = .next t ∧
        t = { s with inFlight := t.inFlight, stores := t.stores, srr := t.srr, store := t.store } ∧
        t.store.writing = none ∧ t.store.damaged = s.store.damaged ∧ t.store.supplyLow = s.store.supplyLow ∧
        (∀ x : ImageId, t.store.image x = if x = w.image then w.content else s.store.image x) ∧
        t.store.dirty = (if w.rewrite then s.store.dirty else s.store.dirty.filter fun x => decide (x ≠ w.image)) ∧
        t.srr.read aWriter = (if s.store.damaged then 2 else 0) ∧
        (w.rewrite = false → t.srr.read aDirty = dirtyWord t.store.dirty) ∧
        (w.rewrite = true → t.srr.read aDirty = s.srr.read aDirty) ∧
        SrrOnly s t (fun a => a = aWriter ∨ a = aDirty) ∧
        Raises .writeCompletion s t
          (if w.rewrite = false ∧ t.store.dirty = [] then [.latchRequest .e ⟨.saved, none⟩] else []))) ∧
  ∀ (s : State) (level : Bool),
    (s.store.supplyLow = level → ChangesNothing (.supplyLowChange level) s) ∧
    (s.store.supplyLow ≠ level →
      ∃ t, exec (.supplyLowChange level) s = .next t ∧
        t = { s with inFlight := s.inFlight.erase (.supplyLowChange level), stores := t.stores, srr := t.srr,
                     store := { s.store with supplyLow := level } } ∧
        (s.Running → t.stores = [(aSupply, if level then 1 else 0)] ∧ t.srr.read aSupply = (if level then 1 else 0) ∧
          SrrOnly s t (fun a => a = aSupply)) ∧
        (¬ s.Running → t.stores = [] ∧ t.srr = s.srr))

/-- The record image of slot `i` is kept: it is valid, and no other valid record image of its fault has a later
last-confirm, by ride number and then by time, or as late a one in a lower slot (R164). -/
def Kept (image : SlotNo → SlotImage) (i : SlotNo) (r : Record) : Prop :=
  image i = .record r ∧ ∀ (j : SlotNo) (q : Record), j ≠ i → image j = .record q → q.fault = r.fault →
    q.lastRide < r.lastRide ∨ (q.lastRide = r.lastRide ∧
      (q.lastConfirm < r.lastConfirm ∨ (q.lastConfirm = r.lastConfirm ∧ i < j)))

/-- A part reset. The hold stops the writer, leaves each word of an image in flight old or new, abandons the transactions
and sets the lamp outputs off. Its release gives every block its value after part reset, the SRR zero but for the loaded
views, and the records of the valid images, one for a fault, with their frames as buffers, the lowest-numbered in the
order of the slots, and the settled ride number; an image is dirty, and the damaged latch set, for the reasons of the
rules and no other, and each loaded record that lights a lamp has its notice raised. The end of the load publishes the
control area and the queue, ring and attention words, which read 0, the mode word last, and the mode is CONFIG (R30, R130
to R132, R154, R160 to R167, R172). A release without a hold before it, episode number 0 and the record's priority in a
loaded frame, the moment of those notices, and that the release raises no mode notice are the model's choices (log
entries 12, 15, 19 and 35). -/
def Obligations.ResetLoadsTheImages : Prop :=
  ∀ s : State,
    (∃ t, exec .resetHold s = .next t ∧
      (s.held = true → t = s.begin .resetHold) ∧
      (s.held = false →
        t = { s with
          inFlight := s.inFlight.erase .resetHold, stores := [], tears := t.tears, held := true, ports := t.ports,
          lamps := { s.lamps with engine := { s.lamps.engine with output := false },
                                  abs := { s.lamps.abs with output := false } },
          store := { s.store with header := t.store.header, images := t.store.images, writing := none } } ∧
        (∀ p : Port, t.ports.get p =
          { s.ports.get p with
            link := if (s.ports.get p).link = .deselected then .deselected else .abandoned }) ∧
        ∀ x : ImageId,
          ((∀ w, s.store.writing = some w → w.image ≠ x) → t.store.image x = s.store.image x) ∧
          (∀ w, s.store.writing = some w → w.image = x → ∀ a, a < imageLength x →
            (t.store.image x).read a = w.content.read a ∨ (t.store.image x).read a = (s.store.image x).read a))) ∧
    (s.MemoryWf →
      ∃ t, exec .partReset s = .next t ∧
        t = { State.reset with
          pending := s.pending, inFlight := t.inFlight, stores := t.stores, tears := t.tears, srr := t.srr,
          ports := t.ports, pool := t.pool, slots := t.slots, index := t.index,
          sup := { Supervisor.reset with rideNumber := t.sup.rideNumber },
          store := { t.store with writing := none, supplyLow := s.store.supplyLow } } ∧
        (∀ p : Port, t.ports.get p =
          { PortIf.reset with link := if (s.ports.get p).link = .deselected then .deselected else .abandoned }) ∧
        (∀ a, ¬ inEventViews a → (∀ b, ¬ inBuffer b a) → t.srr.read a = 0) ∧
        (∀ i : SlotNo, t.srr.read (recordView i + 10) = if t.slots[i] = none then 0 else 2) ∧
        t.srr.read (indexView + 1) = (if t.index = [] then 0 else 2) ∧
        (∀ b : BufNo, t.srr.read (bufferBase b + 7) = (if t.pool[b] = none then 0 else 2) ∧
          ∀ a, placeAddress b (samplesCounted t.pool[b]) ≤ a → inBuffer b a → t.srr.read a = 0) ∧
        t.MemoryWf ∧ t.EventMemoryWf ∧ t.ViewsFaithful ∧ t.DirtyWf ∧
        (s.store.writing = none → t.store.header = s.store.header ∧ t.store.images = s.store.images) ∧
        (∀ x : ImageId,
          ((∀ w, s.store.writing = some w → w.image ≠ x) → t.store.image x = s.store.image x) ∧
          (∀ w, s.store.writing = some w → w.image = x → ∀ a, a < imageLength x →
            (t.store.image x).read a = w.content.read a ∨ (t.store.image x).read a = (s.store.image x).read a)) ∧
        let image (i : SlotNo) : SlotImage := readSlotImage t.store.images[i]
        (∀ i : SlotNo, (∀ r, ¬ Kept image i r) → t.slots[i] = none) ∧
        (∀ (i : SlotNo) (r : Record), Kept image i r →
          ∃ q, t.slots[i] = some q ∧
            q = { r with state := if r.lampLatch then .active else .stored, frame := q.frame,
                         frameStatus := q.frameStatus, preShort := q.preShort, gap := q.gap } ∧
            (r.frameStatus = .none ∨ r.frameStatus = .missed →
              q.frame = none ∧ q.frameStatus = r.frameStatus ∧ q.preShort = r.preShort ∧ q.gap = r.gap) ∧
            (r.frameStatus = .capturing ∨ r.frameStatus = .complete ∨ r.frameStatus = .short →
              (captureOfImage t.store.images[i] i r = none →
                q.frame = none ∧ q.frameStatus = .missed ∧ q.preShort = false ∧ q.gap = false) ∧
              (∀ c, captureOfImage t.store.images[i] i r = some c →
                ∃ b, q.frame = some b ∧ t.pool[b] = some c ∧
                  q.frameStatus = (if r.frameStatus = .complete then .complete else .short) ∧
                  q.preShort = r.preShort ∧ q.gap = r.gap ∧
                  ∀ k, k < c.preGot + c.postGot →
                    t.srr.readRange (placeAddress b k) 8 = (t.store.images[i]).readRange (imagePlace k) 8))) ∧
        let unsound (i : SlotNo) (r : Record) : Prop :=
          (r.frameStatus = .capturing ∨ r.frameStatus = .complete ∨ r.frameStatus = .short) ∧
            captureOfImage t.store.images[i] i r = none
        (∀ (b : BufNo) (c : Capture), t.pool[b] = some c →
          ∃ i q, c.holder = .record i ∧ c.state ≠ .opened ∧ t.slots[i] = some q ∧ q.frame = some b) ∧
        (∀ (i j : SlotNo) (q q' : Record) (b b' : BufNo), i < j → t.slots[i] = some q → t.slots[j] = some q' →
          q.frame = some b → q'.frame = some b' → b < b') ∧
        (∀ b b' : BufNo, b' < b → t.pool[b] ≠ none → t.pool[b'] ≠ none) ∧
        (t.store.damaged = true ↔ readHeaderImage t.store.header = none ∨ (∃ i, image i = .bad) ∨
          ∃ i r, Kept image i r ∧ unsound i r) ∧
        (∀ i : SlotNo, .slot i ∈ t.store.dirty ↔
          image i = .bad ∨ (∃ r, image i = .record r ∧ ¬ Kept image i r) ∨
          ∃ r, Kept image i r ∧ (unsound i r ∨ r.frameStatus = .capturing ∨
            r.state ≠ if r.lampLatch then .active else .stored)) ∧
        t.inFlight = ((List.finRange 16).filterMap fun i =>
          match t.slots[i] with
          | some q => if q.lampLatch = true ∧ q.lamp ≠ .none then some (.recordLampNotice ⟨q.lamp, none⟩) else none
          | none => none) ++ [.loadComplete] ∧
        (∀ (i : SlotNo) (r : Record), Kept image i r → r.lastRide ≤ t.sup.rideNumber) ∧
        (readHeaderImage t.store.header = none →
          .header ∈ t.store.dirty ∧
          (t.sup.rideNumber = 0 ∨ ∃ (i : SlotNo) (r : Record), Kept image i r ∧ r.lastRide = t.sup.rideNumber)) ∧
        (∀ n, readHeaderImage t.store.header = some n →
          n ≤ t.sup.rideNumber ∧ (.header ∈ t.store.dirty ↔ t.sup.rideNumber ≠ n) ∧
          (t.sup.rideNumber = n ∨ ∃ (i : SlotNo) (r : Record), Kept image i r ∧ r.lastRide = t.sup.rideNumber))) ∧
    (s.held = false →
      (s.sup.mode = .startUp →
        ∃ t, exec .loadComplete s = .next t ∧
          t = { s with inFlight := t.inFlight, stores := t.stores, srr := t.srr, queues := t.queues,
                       sup := { s.sup with mode := .config }, handler := { s.handler with fdtLocked := false } } ∧
          (let standing (p : Port) := [aTop p, aBottom p, aQueueMask p, aEmptyLevel p, aFullLevel p, aOccupancy p, aHead p,
             aRingMask p, aRingState p, aEnable p, aPolarity p, aOrder p, aLatched p, aTopCause p, aRejectReason p,
             aRejectFault p, aRejectIndex p]
           (∀ p : Port, ∀ a ∈ standing p, t.srr.read a = 0) ∧
             SrrOnly s t (fun a => a ≤ 0x000E ∨ ∃ p, a ∈ standing p)) ∧
          (s.ControlAreaWf → t.ControlArea) ∧ t.srr.read 0x0000 = 0x0740 ∧ t.srr.read 0x0001 = 1 ∧
          t.stores.getLast? = some (0x0002, 1) ∧
          (∀ p : Port,
            let q := t.queues.get p
            q = { Queue.reset with almostEmpty := q.almostEmpty, almostFull := q.almostFull } ∧ LevelsHold t p q) ∧
          Raises .loadComplete s t [.modeNotice]) ∧
      (s.sup.mode ≠ .startUp → ChangesNothing .loadComplete s))
end

