-- ==== Sys2Proof/Laws/Memory.lean ====
section
/-! SUPPORT. The laws of memories of words: a read after a write, and the canonical form that every operation keeps. -/

namespace Sys2Proof.Machine

theorem Mem.wf_iff {m : Mem} :
    m.wf = true ↔ m.Pairwise (fun c d => c.1 < d.1) ∧ ∀ c ∈ m, c.2 ≠ 0 := by
  simp [Mem.wf]

theorem Mem.below_iff {m : Mem} {n : Nat} : m.below n = true ↔ ∀ c ∈ m, c.1 < n := by
  simp [Mem.below]

theorem Mem.mem_write {m : Mem} {a : Nat} {v : Word} {c : Nat × Word} :
    c ∈ m.write a v ↔ (c ∈ m ∧ c.1 ≠ a) ∨ (c = (a, v) ∧ v ≠ 0) := by
  have mid : c ∈ (if v = 0 then [] else [(a, v)] : Mem) ↔ c = (a, v) ∧ v ≠ 0 := by
    by_cases hv : v = 0
    · rw [if_pos hv]
      exact ⟨fun h => (nomatch h), fun h => absurd hv h.2⟩
    · rw [if_neg hv]
      exact ⟨fun h => ⟨List.mem_singleton.1 h, hv⟩, fun h => List.mem_singleton.2 h.1⟩
  unfold Mem.write
  rw [List.mem_append, List.mem_append, mid, List.mem_filter, List.mem_filter, decide_eq_true_iff,
    decide_eq_true_iff]
  constructor
  · rintro (h | h | h)
    · exact .inl ⟨h.1, Nat.ne_of_lt h.2⟩
    · exact .inr h
    · exact .inl ⟨h.1, Nat.ne_of_gt h.2⟩
  · rintro (h | h)
    · rcases Nat.lt_or_gt_of_ne h.2 with hl | hl
      · exact .inl ⟨h.1, hl⟩
      · exact .inr (.inr ⟨h.1, hl⟩)
    · exact .inr (.inl h)

/-- Reading the word just written. -/
@[simp] theorem Mem.read_write_same (m : Mem) (a : Nat) (v : Word) : (m.write a v).read a = v := by
  have h1 : (m.filter fun c => decide (c.1 < a)).find? (fun c => c.1 == a) = none := by
    rw [List.find?_eq_none]
    intro c hc
    have := (List.mem_filter.1 hc).2
    simp at this ⊢
    omega
  have h2 : (m.filter fun c => decide (a < c.1)).find? (fun c => c.1 == a) = none := by
    rw [List.find?_eq_none]
    intro c hc
    have := (List.mem_filter.1 hc).2
    simp at this ⊢
    omega
  unfold Mem.read Mem.write
  rw [List.find?_append, h1]
  by_cases hv : v = 0
  · rw [if_pos hv, hv]
    simp [h2]
  · rw [if_neg hv]
    simp

theorem Mem.find?_filter_of_imp (m : Mem) (p : Nat × Word → Bool) (b : Nat)
    (h : ∀ c, (c.1 == b) = true → p c = true) :
    (m.filter p).find? (fun c => c.1 == b) = m.find? (fun c => c.1 == b) := by
  rw [List.find?_filter]
  congr 1
  funext c
  by_cases hc : (c.1 == b) = true
  · simp [h c hc, hc]
  · simp [hc]

theorem Mem.find?_filter_of_not (m : Mem) (p : Nat × Word → Bool) (b : Nat)
    (h : ∀ c, (c.1 == b) = true → p c = false) :
    (m.filter p).find? (fun c => c.1 == b) = none := by
  rw [List.find?_eq_none]
  intro c hc hb
  have := (List.mem_filter.1 hc).2
  rw [h c hb] at this
  cases this

/-- A write leaves every other word alone. -/
theorem Mem.read_write_other (m : Mem) {a b : Nat} (v : Word) (h : b ≠ a) : (m.write a v).read b = m.read b := by
  have hmid : (if v = 0 then [] else [(a, v)] : Mem).find? (fun c => c.1 == b) = none := by
    by_cases hv : v = 0
    · rw [if_pos hv]
      rfl
    · rw [if_neg hv]
      simp [Ne.symm h]
  unfold Mem.read Mem.write
  rw [List.find?_append, List.find?_append, hmid]
  rcases Nat.lt_or_gt_of_ne h with hl | hl
  · rw [Mem.find?_filter_of_imp m (fun c => decide (c.1 < a)) b (by intro c hc; simp at hc ⊢; omega),
      Mem.find?_filter_of_not m (fun c => decide (a < c.1)) b (by intro c hc; simp at hc ⊢; omega)]
    simp
  · rw [Mem.find?_filter_of_not m (fun c => decide (c.1 < a)) b (by intro c hc; simp at hc ⊢; omega),
      Mem.find?_filter_of_imp m (fun c => decide (a < c.1)) b (by intro c hc; simp at hc ⊢; omega)]
    simp

theorem Mem.read_write (m : Mem) (a b : Nat) (v : Word) :
    (m.write a v).read b = if b = a then v else m.read b := by
  by_cases h : b = a
  · simp [h]
  · simp [h, Mem.read_write_other m v h]

/-- Every write keeps the canonical form. -/
theorem Mem.wf_write {m : Mem} (h : m.wf = true) (a : Nat) (v : Word) : (m.write a v).wf = true := by
  rw [Mem.wf_iff] at h ⊢
  constructor
  · unfold Mem.write
    rw [List.pairwise_append, List.pairwise_append]
    refine ⟨h.1.filter _, ⟨?_, h.1.filter _, ?_⟩, ?_⟩
    · by_cases hv : v = 0
      · rw [if_pos hv]
        exact List.Pairwise.nil
      · rw [if_neg hv]
        exact List.pairwise_singleton ..
    · intro c hc d hd
      have hd := (List.mem_filter.1 hd).2
      by_cases hv : v = 0
      · rw [if_pos hv] at hc
        cases hc
      · rw [if_neg hv, List.mem_singleton] at hc
        subst hc
        simpa using hd
    · intro c hc d hd
      have hc := (List.mem_filter.1 hc).2
      rw [List.mem_append] at hd
      rcases hd with hd | hd
      · by_cases hv : v = 0
        · rw [if_pos hv] at hd
          cases hd
        · rw [if_neg hv, List.mem_singleton] at hd
          subst hd
          simpa using hc
      · have hd := (List.mem_filter.1 hd).2
        simp at hc hd
        omega
  · intro c hc
    rcases Mem.mem_write.1 hc with hc | hc
    · exact h.2 c hc.1
    · rw [hc.1]
      exact hc.2

theorem Mem.below_write {m : Mem} {n : Nat} (h : m.below n = true) {a : Nat} (ha : a < n) (v : Word) :
    (m.write a v).below n = true := by
  rw [Mem.below_iff] at h ⊢
  intro c hc
  rcases Mem.mem_write.1 hc with hc | hc
  · exact h c hc.1
  · rw [hc.1]
    exact ha

theorem Mem.canonical_write {m : Mem} {n : Nat} (h : m.Canonical n) {a : Nat} (ha : a < n) (v : Word) :
    (m.write a v).Canonical n :=
  ⟨Mem.wf_write h.1 a v, Mem.below_write h.2 ha v⟩

@[simp] theorem Mem.writeAll_nil (m : Mem) : m.writeAll [] = m := rfl

@[simp] theorem Mem.writeAll_cons (m : Mem) (w : Nat × Word) (ws : List (Nat × Word)) :
    m.writeAll (w :: ws) = (m.write w.1 w.2).writeAll ws := rfl

theorem Mem.writeAll_append (m : Mem) (us ws : List (Nat × Word)) :
    m.writeAll (us ++ ws) = (m.writeAll us).writeAll ws := List.foldl_append ..

theorem Mem.canonical_writeAll {m : Mem} {n : Nat} (h : m.Canonical n) {ws : List (Nat × Word)}
    (hw : ∀ w ∈ ws, w.1 < n) : (m.writeAll ws).Canonical n := by
  induction ws generalizing m with
  | nil => exact h
  | cons w ws ih =>
    exact ih (Mem.canonical_write h (hw w (List.mem_cons_self ..)) w.2) fun x hx => hw x (List.mem_cons_of_mem _ hx)

theorem Mem.canonical_nil (n : Nat) : Mem.Canonical [] n := ⟨rfl, rfl⟩

/-- Several writes leave every word alone that none of them names. -/
theorem Mem.read_writeAll_other {m : Mem} {ws : List (Nat × Word)} {b : Nat} (h : ∀ w ∈ ws, w.1 ≠ b) :
    (m.writeAll ws).read b = m.read b := by
  induction ws generalizing m with
  | nil => rfl
  | cons w ws ih =>
    rw [Mem.writeAll_cons, ih fun x hx => h x (List.mem_cons_of_mem _ hx),
      Mem.read_write_other _ _ (Ne.symm (h w (List.mem_cons_self ..)))]

theorem mem_wordsAt {a : Nat} {ws : List Word} {w : Nat × Word} (h : w ∈ wordsAt a ws) :
    a ≤ w.1 ∧ w.1 < a + ws.length := by
  induction ws generalizing a with
  | nil => cases h
  | cons x xs ih =>
    rcases List.mem_cons.1 h with h | h
    · subst h
      simp
    · have := ih h
      simp only [List.length_cons]
      omega

/-- A word of a run of words written in order. -/
theorem Mem.read_writeAll_wordsAt (m : Mem) (a : Nat) (ws : List Word) (i : Nat) (h : i < ws.length) :
    (m.writeAll (wordsAt a ws)).read (a + i) = ws[i] := by
  induction ws generalizing m a i with
  | nil => cases h
  | cons x xs ih =>
    rw [wordsAt, Mem.writeAll_cons]
    cases i with
    | zero =>
      rw [Mem.read_writeAll_other]
      · simp
      · intro w hw
        have := mem_wordsAt hw
        omega
    | succ j =>
      have := ih (m.write a x) (a + 1) j (by simpa using h)
      rw [show a + (j + 1) = a + 1 + j by omega, this]
      rfl

/-- Writing the word 0 where nothing is listed changes nothing, and equal reads are equal memories. -/
theorem Mem.ext_read {m n : Mem} (hm : m.wf = true) (hn : n.wf = true) (h : ∀ a, m.read a = n.read a) : m = n := by
  rw [Mem.wf_iff] at hm hn
  have key : ∀ {l : Mem}, l.Pairwise (fun c d => c.1 < d.1) → ∀ c, c ∈ l → l.read c.1 = c.2 := by
    intro l
    induction l with
    | nil => intro _ c hc; cases hc
    | cons x xs ih =>
      intro hp c hc
      rw [List.pairwise_cons] at hp
      rcases List.mem_cons.1 hc with hc | hc
      · subst hc
        simp [Mem.read]
      · have hne : (x.1 == c.1) = false := by
          have := hp.1 c hc
          simp
          omega
        have := ih hp.2 c hc
        simp only [Mem.read, List.find?_cons, hne] at this ⊢
        exact this
  have sub : ∀ {l k : Mem}, l.Pairwise (fun c d => c.1 < d.1) → (∀ c ∈ l, c.2 ≠ 0) →
      (∀ a, l.read a = k.read a) → ∀ c ∈ l, c ∈ k := by
    intro l k hl hz hr c hc
    have h1 := key hl c hc
    have h2 := hz c hc
    rw [hr c.1] at h1
    unfold Mem.read at h1
    cases hf : k.find? (fun d => d.1 == c.1) with
    | none =>
      rw [hf] at h1
      exact absurd h1.symm h2
    | some d =>
      rw [hf] at h1
      have hd := List.find?_some hf
      have hk := List.mem_of_find?_eq_some hf
      have : d = c := Prod.ext (by simpa using hd) h1
      rwa [this] at hk
  have perm : m.Perm n := by
    rw [List.perm_ext_iff_of_nodup]
    · intro c
      exact ⟨sub hm.1 hm.2 h c, sub hn.1 hn.2 (fun a => (h a).symm) c⟩
    · exact hm.1.imp fun hlt he => by rw [he] at hlt; exact Nat.lt_irrefl _ hlt
    · exact hn.1.imp fun hlt he => by rw [he] at hlt; exact Nat.lt_irrefl _ hlt
  exact perm.eq_of_pairwise (le := fun c d => c.1 < d.1)
    (fun c d _ _ hcd hdc => absurd hcd (Nat.lt_asymm hdc)) hm.1 hn.1

/-- The memory of the part at reset is canonical. -/
theorem State.reset_srr_canonical : State.reset.srr.Canonical Config.srrWords := Mem.canonical_nil _

theorem mem_tornImage {n words : Nat} {old new : Mem} {c : Nat × Word} (h : c ∈ tornImage n words old new) :
    c.1 < words ∧ c.2 ≠ 0 := by
  unfold tornImage at h
  rw [List.mem_filterMap] at h
  obtain ⟨i, hi, h⟩ := h
  rw [List.mem_range] at hi
  dsimp only at h
  split at h <;> split at h
  all_goals cases h <;> exact ⟨hi, by assumption⟩

/-- A torn image is canonical, whichever of its words had been written (R160). -/
theorem tornImage_canonical (n words : Nat) (old new : Mem) : (tornImage n words old new).Canonical words := by
  refine ⟨Mem.wf_iff.2 ⟨?_, fun c hc => (mem_tornImage hc).2⟩, Mem.below_iff.2 fun c hc => (mem_tornImage hc).1⟩
  unfold tornImage
  rw [List.pairwise_filterMap]
  refine List.Pairwise.imp ?_ List.pairwise_lt_range
  intro i j hij c hc d hd
  dsimp only at hc hd
  have hci : c.1 = i := by
    split at hc <;> split at hc
    all_goals cases hc <;> rfl
  have hdj : d.1 = j := by
    split at hd <;> split at hd
    all_goals cases hd <;> rfl
  omega

end Sys2Proof.Machine
end

