-- ==== Sys2Proof/Laws/State.lean ====
section
/-! SUPPORT. One lemma for each field under each named update of State, so that no later proof unfolds one, and the
laws of a pair of things, one for each port. -/

namespace Sys2Proof

@[simp] theorem Both.get_set_same {α : Type} (b : Both α) (p : Port) (x : α) : (b.set p x).get p = x := by
  cases p <;> rfl

theorem Both.get_set_other {α : Type} (b : Both α) {p q : Port} (x : α) (h : q ≠ p) : (b.set p x).get q = b.get q := by
  cases p <;> cases q <;> first | rfl | exact absurd rfl h

theorem Both.get_set {α : Type} (b : Both α) (p q : Port) (x : α) :
    (b.set p x).get q = if q = p then x else b.get q := by
  cases p <;> cases q <;> rfl

@[simp] theorem Both.set_set {α : Type} (b : Both α) (p : Port) (x y : α) : (b.set p x).set p y = b.set p y := by
  cases p <;> rfl

@[simp] theorem Both.set_get {α : Type} (b : Both α) (p : Port) : b.set p (b.get p) = b := by
  cases p <;> rfl

theorem Both.ext_get {α : Type} {b c : Both α} (h : ∀ p, b.get p = c.get p) : b = c := by
  have he := h .e
  have ha := h .a
  cases b
  cases c
  simp_all [Both.get]

end Sys2Proof

namespace Sys2Proof.Machine

@[simp] theorem State.setPort_pending (s : State) (p : Port) (x : PortIf) : (s.setPort p x).pending = s.pending := rfl
@[simp] theorem State.setPort_inFlight (s : State) (p : Port) (x : PortIf) : (s.setPort p x).inFlight = s.inFlight := rfl
@[simp] theorem State.setPort_stores (s : State) (p : Port) (x : PortIf) : (s.setPort p x).stores = s.stores := rfl
@[simp] theorem State.setPort_tears (s : State) (p : Port) (x : PortIf) : (s.setPort p x).tears = s.tears := rfl
@[simp] theorem State.setPort_held (s : State) (p : Port) (x : PortIf) : (s.setPort p x).held = s.held := rfl
@[simp] theorem State.setPort_srr (s : State) (p : Port) (x : PortIf) : (s.setPort p x).srr = s.srr := rfl
@[simp] theorem State.setPort_ports (s : State) (p : Port) (x : PortIf) : (s.setPort p x).ports = s.ports.set p x := rfl
@[simp] theorem State.setPort_queues (s : State) (p : Port) (x : PortIf) : (s.setPort p x).queues = s.queues := rfl
@[simp] theorem State.setPort_rings (s : State) (p : Port) (x : PortIf) : (s.setPort p x).rings = s.rings := rfl
@[simp] theorem State.setPort_faults (s : State) (p : Port) (x : PortIf) : (s.setPort p x).faults = s.faults := rfl
@[simp] theorem State.setPort_pool (s : State) (p : Port) (x : PortIf) : (s.setPort p x).pool = s.pool := rfl
@[simp] theorem State.setPort_slots (s : State) (p : Port) (x : PortIf) : (s.setPort p x).slots = s.slots := rfl
@[simp] theorem State.setPort_index (s : State) (p : Port) (x : PortIf) : (s.setPort p x).index = s.index := rfl
@[simp] theorem State.setPort_sup (s : State) (p : Port) (x : PortIf) : (s.setPort p x).sup = s.sup := rfl
@[simp] theorem State.setPort_lamps (s : State) (p : Port) (x : PortIf) : (s.setPort p x).lamps = s.lamps := rfl
@[simp] theorem State.setPort_enables (s : State) (p : Port) (x : PortIf) : (s.setPort p x).enables = s.enables := rfl
@[simp] theorem State.setPort_handler (s : State) (p : Port) (x : PortIf) : (s.setPort p x).handler = s.handler := rfl
@[simp] theorem State.setPort_store (s : State) (p : Port) (x : PortIf) : (s.setPort p x).store = s.store := rfl

@[simp] theorem State.setQueue_pending (s : State) (p : Port) (x : Queue) : (s.setQueue p x).pending = s.pending := rfl
@[simp] theorem State.setQueue_inFlight (s : State) (p : Port) (x : Queue) : (s.setQueue p x).inFlight = s.inFlight := rfl
@[simp] theorem State.setQueue_stores (s : State) (p : Port) (x : Queue) : (s.setQueue p x).stores = s.stores := rfl
@[simp] theorem State.setQueue_tears (s : State) (p : Port) (x : Queue) : (s.setQueue p x).tears = s.tears := rfl
@[simp] theorem State.setQueue_held (s : State) (p : Port) (x : Queue) : (s.setQueue p x).held = s.held := rfl
@[simp] theorem State.setQueue_srr (s : State) (p : Port) (x : Queue) : (s.setQueue p x).srr = s.srr := rfl
@[simp] theorem State.setQueue_ports (s : State) (p : Port) (x : Queue) : (s.setQueue p x).ports = s.ports := rfl
@[simp] theorem State.setQueue_queues (s : State) (p : Port) (x : Queue) : (s.setQueue p x).queues = s.queues.set p x := rfl
@[simp] theorem State.setQueue_rings (s : State) (p : Port) (x : Queue) : (s.setQueue p x).rings = s.rings := rfl
@[simp] theorem State.setQueue_faults (s : State) (p : Port) (x : Queue) : (s.setQueue p x).faults = s.faults := rfl
@[simp] theorem State.setQueue_pool (s : State) (p : Port) (x : Queue) : (s.setQueue p x).pool = s.pool := rfl
@[simp] theorem State.setQueue_slots (s : State) (p : Port) (x : Queue) : (s.setQueue p x).slots = s.slots := rfl
@[simp] theorem State.setQueue_index (s : State) (p : Port) (x : Queue) : (s.setQueue p x).index = s.index := rfl
@[simp] theorem State.setQueue_sup (s : State) (p : Port) (x : Queue) : (s.setQueue p x).sup = s.sup := rfl
@[simp] theorem State.setQueue_lamps (s : State) (p : Port) (x : Queue) : (s.setQueue p x).lamps = s.lamps := rfl
@[simp] theorem State.setQueue_enables (s : State) (p : Port) (x : Queue) : (s.setQueue p x).enables = s.enables := rfl
@[simp] theorem State.setQueue_handler (s : State) (p : Port) (x : Queue) : (s.setQueue p x).handler = s.handler := rfl
@[simp] theorem State.setQueue_store (s : State) (p : Port) (x : Queue) : (s.setQueue p x).store = s.store := rfl

@[simp] theorem State.setRing_pending (s : State) (p : Port) (x : Tracker) : (s.setRing p x).pending = s.pending := rfl
@[simp] theorem State.setRing_inFlight (s : State) (p : Port) (x : Tracker) : (s.setRing p x).inFlight = s.inFlight := rfl
@[simp] theorem State.setRing_stores (s : State) (p : Port) (x : Tracker) : (s.setRing p x).stores = s.stores := rfl
@[simp] theorem State.setRing_tears (s : State) (p : Port) (x : Tracker) : (s.setRing p x).tears = s.tears := rfl
@[simp] theorem State.setRing_held (s : State) (p : Port) (x : Tracker) : (s.setRing p x).held = s.held := rfl
@[simp] theorem State.setRing_srr (s : State) (p : Port) (x : Tracker) : (s.setRing p x).srr = s.srr := rfl
@[simp] theorem State.setRing_ports (s : State) (p : Port) (x : Tracker) : (s.setRing p x).ports = s.ports := rfl
@[simp] theorem State.setRing_queues (s : State) (p : Port) (x : Tracker) : (s.setRing p x).queues = s.queues := rfl
@[simp] theorem State.setRing_rings (s : State) (p : Port) (x : Tracker) : (s.setRing p x).rings = s.rings.set p x := rfl
@[simp] theorem State.setRing_faults (s : State) (p : Port) (x : Tracker) : (s.setRing p x).faults = s.faults := rfl
@[simp] theorem State.setRing_pool (s : State) (p : Port) (x : Tracker) : (s.setRing p x).pool = s.pool := rfl
@[simp] theorem State.setRing_slots (s : State) (p : Port) (x : Tracker) : (s.setRing p x).slots = s.slots := rfl
@[simp] theorem State.setRing_index (s : State) (p : Port) (x : Tracker) : (s.setRing p x).index = s.index := rfl
@[simp] theorem State.setRing_sup (s : State) (p : Port) (x : Tracker) : (s.setRing p x).sup = s.sup := rfl
@[simp] theorem State.setRing_lamps (s : State) (p : Port) (x : Tracker) : (s.setRing p x).lamps = s.lamps := rfl
@[simp] theorem State.setRing_enables (s : State) (p : Port) (x : Tracker) : (s.setRing p x).enables = s.enables := rfl
@[simp] theorem State.setRing_handler (s : State) (p : Port) (x : Tracker) : (s.setRing p x).handler = s.handler := rfl
@[simp] theorem State.setRing_store (s : State) (p : Port) (x : Tracker) : (s.setRing p x).store = s.store := rfl

@[simp] theorem State.setFault_pending (s : State) (f : FaultNo) (x : FaultEntry) : (s.setFault f x).pending = s.pending := rfl
@[simp] theorem State.setFault_inFlight (s : State) (f : FaultNo) (x : FaultEntry) : (s.setFault f x).inFlight = s.inFlight := rfl
@[simp] theorem State.setFault_stores (s : State) (f : FaultNo) (x : FaultEntry) : (s.setFault f x).stores = s.stores := rfl
@[simp] theorem State.setFault_tears (s : State) (f : FaultNo) (x : FaultEntry) : (s.setFault f x).tears = s.tears := rfl
@[simp] theorem State.setFault_held (s : State) (f : FaultNo) (x : FaultEntry) : (s.setFault f x).held = s.held := rfl
@[simp] theorem State.setFault_srr (s : State) (f : FaultNo) (x : FaultEntry) : (s.setFault f x).srr = s.srr := rfl
@[simp] theorem State.setFault_ports (s : State) (f : FaultNo) (x : FaultEntry) : (s.setFault f x).ports = s.ports := rfl
@[simp] theorem State.setFault_queues (s : State) (f : FaultNo) (x : FaultEntry) : (s.setFault f x).queues = s.queues := rfl
@[simp] theorem State.setFault_rings (s : State) (f : FaultNo) (x : FaultEntry) : (s.setFault f x).rings = s.rings := rfl
@[simp] theorem State.setFault_faults (s : State) (f : FaultNo) (x : FaultEntry) : (s.setFault f x).faults = s.faults.set f x := rfl
@[simp] theorem State.setFault_pool (s : State) (f : FaultNo) (x : FaultEntry) : (s.setFault f x).pool = s.pool := rfl
@[simp] theorem State.setFault_slots (s : State) (f : FaultNo) (x : FaultEntry) : (s.setFault f x).slots = s.slots := rfl
@[simp] theorem State.setFault_index (s : State) (f : FaultNo) (x : FaultEntry) : (s.setFault f x).index = s.index := rfl
@[simp] theorem State.setFault_sup (s : State) (f : FaultNo) (x : FaultEntry) : (s.setFault f x).sup = s.sup := rfl
@[simp] theorem State.setFault_lamps (s : State) (f : FaultNo) (x : FaultEntry) : (s.setFault f x).lamps = s.lamps := rfl
@[simp] theorem State.setFault_enables (s : State) (f : FaultNo) (x : FaultEntry) : (s.setFault f x).enables = s.enables := rfl
@[simp] theorem State.setFault_handler (s : State) (f : FaultNo) (x : FaultEntry) : (s.setFault f x).handler = s.handler := rfl
@[simp] theorem State.setFault_store (s : State) (f : FaultNo) (x : FaultEntry) : (s.setFault f x).store = s.store := rfl

@[simp] theorem State.setBuffer_pending (s : State) (b : BufNo) (x : Option Capture) : (s.setBuffer b x).pending = s.pending := rfl
@[simp] theorem State.setBuffer_inFlight (s : State) (b : BufNo) (x : Option Capture) : (s.setBuffer b x).inFlight = s.inFlight := rfl
@[simp] theorem State.setBuffer_stores (s : State) (b : BufNo) (x : Option Capture) : (s.setBuffer b x).stores = s.stores := rfl
@[simp] theorem State.setBuffer_tears (s : State) (b : BufNo) (x : Option Capture) : (s.setBuffer b x).tears = s.tears := rfl
@[simp] theorem State.setBuffer_held (s : State) (b : BufNo) (x : Option Capture) : (s.setBuffer b x).held = s.held := rfl
@[simp] theorem State.setBuffer_srr (s : State) (b : BufNo) (x : Option Capture) : (s.setBuffer b x).srr = s.srr := rfl
@[simp] theorem State.setBuffer_ports (s : State) (b : BufNo) (x : Option Capture) : (s.setBuffer b x).ports = s.ports := rfl
@[simp] theorem State.setBuffer_queues (s : State) (b : BufNo) (x : Option Capture) : (s.setBuffer b x).queues = s.queues := rfl
@[simp] theorem State.setBuffer_rings (s : State) (b : BufNo) (x : Option Capture) : (s.setBuffer b x).rings = s.rings := rfl
@[simp] theorem State.setBuffer_faults (s : State) (b : BufNo) (x : Option Capture) : (s.setBuffer b x).faults = s.faults := rfl
@[simp] theorem State.setBuffer_pool (s : State) (b : BufNo) (x : Option Capture) : (s.setBuffer b x).pool = s.pool.set b x := rfl
@[simp] theorem State.setBuffer_slots (s : State) (b : BufNo) (x : Option Capture) : (s.setBuffer b x).slots = s.slots := rfl
@[simp] theorem State.setBuffer_index (s : State) (b : BufNo) (x : Option Capture) : (s.setBuffer b x).index = s.index := rfl
@[simp] theorem State.setBuffer_sup (s : State) (b : BufNo) (x : Option Capture) : (s.setBuffer b x).sup = s.sup := rfl
@[simp] theorem State.setBuffer_lamps (s : State) (b : BufNo) (x : Option Capture) : (s.setBuffer b x).lamps = s.lamps := rfl
@[simp] theorem State.setBuffer_enables (s : State) (b : BufNo) (x : Option Capture) : (s.setBuffer b x).enables = s.enables := rfl
@[simp] theorem State.setBuffer_handler (s : State) (b : BufNo) (x : Option Capture) : (s.setBuffer b x).handler = s.handler := rfl
@[simp] theorem State.setBuffer_store (s : State) (b : BufNo) (x : Option Capture) : (s.setBuffer b x).store = s.store := rfl

@[simp] theorem State.setSlots_pending (s : State) (x : Vector (Option Record) 16) : (s.setSlots x).pending = s.pending := rfl
@[simp] theorem State.setSlots_inFlight (s : State) (x : Vector (Option Record) 16) : (s.setSlots x).inFlight = s.inFlight := rfl
@[simp] theorem State.setSlots_stores (s : State) (x : Vector (Option Record) 16) : (s.setSlots x).stores = s.stores := rfl
@[simp] theorem State.setSlots_tears (s : State) (x : Vector (Option Record) 16) : (s.setSlots x).tears = s.tears := rfl
@[simp] theorem State.setSlots_held (s : State) (x : Vector (Option Record) 16) : (s.setSlots x).held = s.held := rfl
@[simp] theorem State.setSlots_srr (s : State) (x : Vector (Option Record) 16) : (s.setSlots x).srr = s.srr := rfl
@[simp] theorem State.setSlots_ports (s : State) (x : Vector (Option Record) 16) : (s.setSlots x).ports = s.ports := rfl
@[simp] theorem State.setSlots_queues (s : State) (x : Vector (Option Record) 16) : (s.setSlots x).queues = s.queues := rfl
@[simp] theorem State.setSlots_rings (s : State) (x : Vector (Option Record) 16) : (s.setSlots x).rings = s.rings := rfl
@[simp] theorem State.setSlots_faults (s : State) (x : Vector (Option Record) 16) : (s.setSlots x).faults = s.faults := rfl
@[simp] theorem State.setSlots_pool (s : State) (x : Vector (Option Record) 16) : (s.setSlots x).pool = s.pool := rfl
@[simp] theorem State.setSlots_slots (s : State) (x : Vector (Option Record) 16) : (s.setSlots x).slots = x := rfl
@[simp] theorem State.setSlots_index (s : State) (x : Vector (Option Record) 16) : (s.setSlots x).index = s.index := rfl
@[simp] theorem State.setSlots_sup (s : State) (x : Vector (Option Record) 16) : (s.setSlots x).sup = s.sup := rfl
@[simp] theorem State.setSlots_lamps (s : State) (x : Vector (Option Record) 16) : (s.setSlots x).lamps = s.lamps := rfl
@[simp] theorem State.setSlots_enables (s : State) (x : Vector (Option Record) 16) : (s.setSlots x).enables = s.enables := rfl
@[simp] theorem State.setSlots_handler (s : State) (x : Vector (Option Record) 16) : (s.setSlots x).handler = s.handler := rfl
@[simp] theorem State.setSlots_store (s : State) (x : Vector (Option Record) 16) : (s.setSlots x).store = s.store := rfl

@[simp] theorem State.setIndex_pending (s : State) (x : List SlotNo) : (s.setIndex x).pending = s.pending := rfl
@[simp] theorem State.setIndex_inFlight (s : State) (x : List SlotNo) : (s.setIndex x).inFlight = s.inFlight := rfl
@[simp] theorem State.setIndex_stores (s : State) (x : List SlotNo) : (s.setIndex x).stores = s.stores := rfl
@[simp] theorem State.setIndex_tears (s : State) (x : List SlotNo) : (s.setIndex x).tears = s.tears := rfl
@[simp] theorem State.setIndex_held (s : State) (x : List SlotNo) : (s.setIndex x).held = s.held := rfl
@[simp] theorem State.setIndex_srr (s : State) (x : List SlotNo) : (s.setIndex x).srr = s.srr := rfl
@[simp] theorem State.setIndex_ports (s : State) (x : List SlotNo) : (s.setIndex x).ports = s.ports := rfl
@[simp] theorem State.setIndex_queues (s : State) (x : List SlotNo) : (s.setIndex x).queues = s.queues := rfl
@[simp] theorem State.setIndex_rings (s : State) (x : List SlotNo) : (s.setIndex x).rings = s.rings := rfl
@[simp] theorem State.setIndex_faults (s : State) (x : List SlotNo) : (s.setIndex x).faults = s.faults := rfl
@[simp] theorem State.setIndex_pool (s : State) (x : List SlotNo) : (s.setIndex x).pool = s.pool := rfl
@[simp] theorem State.setIndex_slots (s : State) (x : List SlotNo) : (s.setIndex x).slots = s.slots := rfl
@[simp] theorem State.setIndex_index (s : State) (x : List SlotNo) : (s.setIndex x).index = x := rfl
@[simp] theorem State.setIndex_sup (s : State) (x : List SlotNo) : (s.setIndex x).sup = s.sup := rfl
@[simp] theorem State.setIndex_lamps (s : State) (x : List SlotNo) : (s.setIndex x).lamps = s.lamps := rfl
@[simp] theorem State.setIndex_enables (s : State) (x : List SlotNo) : (s.setIndex x).enables = s.enables := rfl
@[simp] theorem State.setIndex_handler (s : State) (x : List SlotNo) : (s.setIndex x).handler = s.handler := rfl
@[simp] theorem State.setIndex_store (s : State) (x : List SlotNo) : (s.setIndex x).store = s.store := rfl

@[simp] theorem State.setSup_pending (s : State) (x : Supervisor) : (s.setSup x).pending = s.pending := rfl
@[simp] theorem State.setSup_inFlight (s : State) (x : Supervisor) : (s.setSup x).inFlight = s.inFlight := rfl
@[simp] theorem State.setSup_stores (s : State) (x : Supervisor) : (s.setSup x).stores = s.stores := rfl
@[simp] theorem State.setSup_tears (s : State) (x : Supervisor) : (s.setSup x).tears = s.tears := rfl
@[simp] theorem State.setSup_held (s : State) (x : Supervisor) : (s.setSup x).held = s.held := rfl
@[simp] theorem State.setSup_srr (s : State) (x : Supervisor) : (s.setSup x).srr = s.srr := rfl
@[simp] theorem State.setSup_ports (s : State) (x : Supervisor) : (s.setSup x).ports = s.ports := rfl
@[simp] theorem State.setSup_queues (s : State) (x : Supervisor) : (s.setSup x).queues = s.queues := rfl
@[simp] theorem State.setSup_rings (s : State) (x : Supervisor) : (s.setSup x).rings = s.rings := rfl
@[simp] theorem State.setSup_faults (s : State) (x : Supervisor) : (s.setSup x).faults = s.faults := rfl
@[simp] theorem State.setSup_pool (s : State) (x : Supervisor) : (s.setSup x).pool = s.pool := rfl
@[simp] theorem State.setSup_slots (s : State) (x : Supervisor) : (s.setSup x).slots = s.slots := rfl
@[simp] theorem State.setSup_index (s : State) (x : Supervisor) : (s.setSup x).index = s.index := rfl
@[simp] theorem State.setSup_sup (s : State) (x : Supervisor) : (s.setSup x).sup = x := rfl
@[simp] theorem State.setSup_lamps (s : State) (x : Supervisor) : (s.setSup x).lamps = s.lamps := rfl
@[simp] theorem State.setSup_enables (s : State) (x : Supervisor) : (s.setSup x).enables = s.enables := rfl
@[simp] theorem State.setSup_handler (s : State) (x : Supervisor) : (s.setSup x).handler = s.handler := rfl
@[simp] theorem State.setSup_store (s : State) (x : Supervisor) : (s.setSup x).store = s.store := rfl

@[simp] theorem State.setLamps_pending (s : State) (x : LampDriver) : (s.setLamps x).pending = s.pending := rfl
@[simp] theorem State.setLamps_inFlight (s : State) (x : LampDriver) : (s.setLamps x).inFlight = s.inFlight := rfl
@[simp] theorem State.setLamps_stores (s : State) (x : LampDriver) : (s.setLamps x).stores = s.stores := rfl
@[simp] theorem State.setLamps_tears (s : State) (x : LampDriver) : (s.setLamps x).tears = s.tears := rfl
@[simp] theorem State.setLamps_held (s : State) (x : LampDriver) : (s.setLamps x).held = s.held := rfl
@[simp] theorem State.setLamps_srr (s : State) (x : LampDriver) : (s.setLamps x).srr = s.srr := rfl
@[simp] theorem State.setLamps_ports (s : State) (x : LampDriver) : (s.setLamps x).ports = s.ports := rfl
@[simp] theorem State.setLamps_queues (s : State) (x : LampDriver) : (s.setLamps x).queues = s.queues := rfl
@[simp] theorem State.setLamps_rings (s : State) (x : LampDriver) : (s.setLamps x).rings = s.rings := rfl
@[simp] theorem State.setLamps_faults (s : State) (x : LampDriver) : (s.setLamps x).faults = s.faults := rfl
@[simp] theorem State.setLamps_pool (s : State) (x : LampDriver) : (s.setLamps x).pool = s.pool := rfl
@[simp] theorem State.setLamps_slots (s : State) (x : LampDriver) : (s.setLamps x).slots = s.slots := rfl
@[simp] theorem State.setLamps_index (s : State) (x : LampDriver) : (s.setLamps x).index = s.index := rfl
@[simp] theorem State.setLamps_sup (s : State) (x : LampDriver) : (s.setLamps x).sup = s.sup := rfl
@[simp] theorem State.setLamps_lamps (s : State) (x : LampDriver) : (s.setLamps x).lamps = x := rfl
@[simp] theorem State.setLamps_handler (s : State) (x : LampDriver) : (s.setLamps x).handler = s.handler := rfl
@[simp] theorem State.setLamps_store (s : State) (x : LampDriver) : (s.setLamps x).store = s.store := rfl

@[simp] theorem State.setEnables_pending (s : State) (p : Port) (x : Word) : (s.setEnables p x).pending = s.pending := rfl
@[simp] theorem State.setEnables_inFlight (s : State) (p : Port) (x : Word) : (s.setEnables p x).inFlight = s.inFlight := rfl
@[simp] theorem State.setEnables_stores (s : State) (p : Port) (x : Word) : (s.setEnables p x).stores = s.stores := rfl
@[simp] theorem State.setEnables_tears (s : State) (p : Port) (x : Word) : (s.setEnables p x).tears = s.tears := rfl
@[simp] theorem State.setEnables_held (s : State) (p : Port) (x : Word) : (s.setEnables p x).held = s.held := rfl
@[simp] theorem State.setEnables_srr (s : State) (p : Port) (x : Word) : (s.setEnables p x).srr = s.srr := rfl
@[simp] theorem State.setEnables_ports (s : State) (p : Port) (x : Word) : (s.setEnables p x).ports = s.ports := rfl
@[simp] theorem State.setEnables_queues (s : State) (p : Port) (x : Word) : (s.setEnables p x).queues = s.queues := rfl
@[simp] theorem State.setEnables_rings (s : State) (p : Port) (x : Word) : (s.setEnables p x).rings = s.rings := rfl
@[simp] theorem State.setEnables_faults (s : State) (p : Port) (x : Word) : (s.setEnables p x).faults = s.faults := rfl
@[simp] theorem State.setEnables_pool (s : State) (p : Port) (x : Word) : (s.setEnables p x).pool = s.pool := rfl
@[simp] theorem State.setEnables_slots (s : State) (p : Port) (x : Word) : (s.setEnables p x).slots = s.slots := rfl
@[simp] theorem State.setEnables_index (s : State) (p : Port) (x : Word) : (s.setEnables p x).index = s.index := rfl
@[simp] theorem State.setEnables_sup (s : State) (p : Port) (x : Word) : (s.setEnables p x).sup = s.sup := rfl
@[simp] theorem State.setEnables_lamps (s : State) (p : Port) (x : Word) : (s.setEnables p x).lamps = s.lamps := rfl
@[simp] theorem State.setEnables_enables (s : State) (p : Port) (x : Word) : (s.setEnables p x).enables = s.enables.set p x := rfl
@[simp] theorem State.setEnables_handler (s : State) (p : Port) (x : Word) : (s.setEnables p x).handler = s.handler := rfl
@[simp] theorem State.setEnables_store (s : State) (p : Port) (x : Word) : (s.setEnables p x).store = s.store := rfl

@[simp] theorem State.setHandler_pending (s : State) (x : Handler) : (s.setHandler x).pending = s.pending := rfl
@[simp] theorem State.setHandler_inFlight (s : State) (x : Handler) : (s.setHandler x).inFlight = s.inFlight := rfl
@[simp] theorem State.setHandler_stores (s : State) (x : Handler) : (s.setHandler x).stores = s.stores := rfl
@[simp] theorem State.setHandler_tears (s : State) (x : Handler) : (s.setHandler x).tears = s.tears := rfl
@[simp] theorem State.setHandler_held (s : State) (x : Handler) : (s.setHandler x).held = s.held := rfl
@[simp] theorem State.setHandler_srr (s : State) (x : Handler) : (s.setHandler x).srr = s.srr := rfl
@[simp] theorem State.setHandler_ports (s : State) (x : Handler) : (s.setHandler x).ports = s.ports := rfl
@[simp] theorem State.setHandler_queues (s : State) (x : Handler) : (s.setHandler x).queues = s.queues := rfl
@[simp] theorem State.setHandler_rings (s : State) (x : Handler) : (s.setHandler x).rings = s.rings := rfl
@[simp] theorem State.setHandler_faults (s : State) (x : Handler) : (s.setHandler x).faults = s.faults := rfl
@[simp] theorem State.setHandler_pool (s : State) (x : Handler) : (s.setHandler x).pool = s.pool := rfl
@[simp] theorem State.setHandler_slots (s : State) (x : Handler) : (s.setHandler x).slots = s.slots := rfl
@[simp] theorem State.setHandler_index (s : State) (x : Handler) : (s.setHandler x).index = s.index := rfl
@[simp] theorem State.setHandler_sup (s : State) (x : Handler) : (s.setHandler x).sup = s.sup := rfl
@[simp] theorem State.setHandler_lamps (s : State) (x : Handler) : (s.setHandler x).lamps = s.lamps := rfl
@[simp] theorem State.setHandler_enables (s : State) (x : Handler) : (s.setHandler x).enables = s.enables := rfl
@[simp] theorem State.setHandler_handler (s : State) (x : Handler) : (s.setHandler x).handler = x := rfl
@[simp] theorem State.setHandler_store (s : State) (x : Handler) : (s.setHandler x).store = s.store := rfl

@[simp] theorem State.setStore_pending (s : State) (x : Store) : (s.setStore x).pending = s.pending := rfl
@[simp] theorem State.setStore_inFlight (s : State) (x : Store) : (s.setStore x).inFlight = s.inFlight := rfl
@[simp] theorem State.setStore_stores (s : State) (x : Store) : (s.setStore x).stores = s.stores := rfl
@[simp] theorem State.setStore_tears (s : State) (x : Store) : (s.setStore x).tears = s.tears := rfl
@[simp] theorem State.setStore_held (s : State) (x : Store) : (s.setStore x).held = s.held := rfl
@[simp] theorem State.setStore_srr (s : State) (x : Store) : (s.setStore x).srr = s.srr := rfl
@[simp] theorem State.setStore_ports (s : State) (x : Store) : (s.setStore x).ports = s.ports := rfl
@[simp] theorem State.setStore_queues (s : State) (x : Store) : (s.setStore x).queues = s.queues := rfl
@[simp] theorem State.setStore_rings (s : State) (x : Store) : (s.setStore x).rings = s.rings := rfl
@[simp] theorem State.setStore_faults (s : State) (x : Store) : (s.setStore x).faults = s.faults := rfl
@[simp] theorem State.setStore_pool (s : State) (x : Store) : (s.setStore x).pool = s.pool := rfl
@[simp] theorem State.setStore_slots (s : State) (x : Store) : (s.setStore x).slots = s.slots := rfl
@[simp] theorem State.setStore_index (s : State) (x : Store) : (s.setStore x).index = s.index := rfl
@[simp] theorem State.setStore_sup (s : State) (x : Store) : (s.setStore x).sup = s.sup := rfl
@[simp] theorem State.setStore_lamps (s : State) (x : Store) : (s.setStore x).lamps = s.lamps := rfl
@[simp] theorem State.setStore_enables (s : State) (x : Store) : (s.setStore x).enables = s.enables := rfl
@[simp] theorem State.setStore_handler (s : State) (x : Store) : (s.setStore x).handler = s.handler := rfl
@[simp] theorem State.setStore_store (s : State) (x : Store) : (s.setStore x).store = x := rfl

@[simp] theorem State.put_pending (s : State) (a : Nat) (v : Word) : (s.put a v).pending = s.pending := rfl
@[simp] theorem State.put_inFlight (s : State) (a : Nat) (v : Word) : (s.put a v).inFlight = s.inFlight := rfl
@[simp] theorem State.put_stores (s : State) (a : Nat) (v : Word) : (s.put a v).stores = s.stores ++ [(a, v)] := rfl
@[simp] theorem State.put_tears (s : State) (a : Nat) (v : Word) : (s.put a v).tears = s.tears := rfl
@[simp] theorem State.put_held (s : State) (a : Nat) (v : Word) : (s.put a v).held = s.held := rfl
@[simp] theorem State.put_srr (s : State) (a : Nat) (v : Word) : (s.put a v).srr = s.srr.write a v := rfl
@[simp] theorem State.put_ports (s : State) (a : Nat) (v : Word) : (s.put a v).ports = s.ports := rfl
@[simp] theorem State.put_queues (s : State) (a : Nat) (v : Word) : (s.put a v).queues = s.queues := rfl
@[simp] theorem State.put_rings (s : State) (a : Nat) (v : Word) : (s.put a v).rings = s.rings := rfl
@[simp] theorem State.put_faults (s : State) (a : Nat) (v : Word) : (s.put a v).faults = s.faults := rfl
@[simp] theorem State.put_pool (s : State) (a : Nat) (v : Word) : (s.put a v).pool = s.pool := rfl
@[simp] theorem State.put_slots (s : State) (a : Nat) (v : Word) : (s.put a v).slots = s.slots := rfl
@[simp] theorem State.put_index (s : State) (a : Nat) (v : Word) : (s.put a v).index = s.index := rfl
@[simp] theorem State.put_sup (s : State) (a : Nat) (v : Word) : (s.put a v).sup = s.sup := rfl
@[simp] theorem State.put_lamps (s : State) (a : Nat) (v : Word) : (s.put a v).lamps = s.lamps := rfl
@[simp] theorem State.put_enables (s : State) (a : Nat) (v : Word) : (s.put a v).enables = s.enables := rfl
@[simp] theorem State.put_handler (s : State) (a : Nat) (v : Word) : (s.put a v).handler = s.handler := rfl
@[simp] theorem State.put_store (s : State) (a : Nat) (v : Word) : (s.put a v).store = s.store := rfl

@[simp] theorem State.raise_pending (s : State) (c : Instr) : (s.raise c).pending = s.pending := rfl
@[simp] theorem State.raise_inFlight (s : State) (c : Instr) : (s.raise c).inFlight = s.inFlight ++ [c] := rfl
@[simp] theorem State.raise_stores (s : State) (c : Instr) : (s.raise c).stores = s.stores := rfl
@[simp] theorem State.raise_tears (s : State) (c : Instr) : (s.raise c).tears = s.tears := rfl
@[simp] theorem State.raise_held (s : State) (c : Instr) : (s.raise c).held = s.held := rfl
@[simp] theorem State.raise_srr (s : State) (c : Instr) : (s.raise c).srr = s.srr := rfl
@[simp] theorem State.raise_ports (s : State) (c : Instr) : (s.raise c).ports = s.ports := rfl
@[simp] theorem State.raise_queues (s : State) (c : Instr) : (s.raise c).queues = s.queues := rfl
@[simp] theorem State.raise_rings (s : State) (c : Instr) : (s.raise c).rings = s.rings := rfl
@[simp] theorem State.raise_faults (s : State) (c : Instr) : (s.raise c).faults = s.faults := rfl
@[simp] theorem State.raise_pool (s : State) (c : Instr) : (s.raise c).pool = s.pool := rfl
@[simp] theorem State.raise_slots (s : State) (c : Instr) : (s.raise c).slots = s.slots := rfl
@[simp] theorem State.raise_index (s : State) (c : Instr) : (s.raise c).index = s.index := rfl
@[simp] theorem State.raise_sup (s : State) (c : Instr) : (s.raise c).sup = s.sup := rfl
@[simp] theorem State.raise_lamps (s : State) (c : Instr) : (s.raise c).lamps = s.lamps := rfl
@[simp] theorem State.raise_enables (s : State) (c : Instr) : (s.raise c).enables = s.enables := rfl
@[simp] theorem State.raise_handler (s : State) (c : Instr) : (s.raise c).handler = s.handler := rfl
@[simp] theorem State.raise_store (s : State) (c : Instr) : (s.raise c).store = s.store := rfl

@[simp] theorem State.raiseAll_pending (s : State) (cs : List Instr) : (s.raiseAll cs).pending = s.pending := rfl
@[simp] theorem State.raiseAll_inFlight (s : State) (cs : List Instr) : (s.raiseAll cs).inFlight = s.inFlight ++ cs := rfl
@[simp] theorem State.raiseAll_stores (s : State) (cs : List Instr) : (s.raiseAll cs).stores = s.stores := rfl
@[simp] theorem State.raiseAll_tears (s : State) (cs : List Instr) : (s.raiseAll cs).tears = s.tears := rfl
@[simp] theorem State.raiseAll_held (s : State) (cs : List Instr) : (s.raiseAll cs).held = s.held := rfl
@[simp] theorem State.raiseAll_srr (s : State) (cs : List Instr) : (s.raiseAll cs).srr = s.srr := rfl
@[simp] theorem State.raiseAll_ports (s : State) (cs : List Instr) : (s.raiseAll cs).ports = s.ports := rfl
@[simp] theorem State.raiseAll_queues (s : State) (cs : List Instr) : (s.raiseAll cs).queues = s.queues := rfl
@[simp] theorem State.raiseAll_rings (s : State) (cs : List Instr) : (s.raiseAll cs).rings = s.rings := rfl
@[simp] theorem State.raiseAll_faults (s : State) (cs : List Instr) : (s.raiseAll cs).faults = s.faults := rfl
@[simp] theorem State.raiseAll_pool (s : State) (cs : List Instr) : (s.raiseAll cs).pool = s.pool := rfl
@[simp] theorem State.raiseAll_slots (s : State) (cs : List Instr) : (s.raiseAll cs).slots = s.slots := rfl
@[simp] theorem State.raiseAll_index (s : State) (cs : List Instr) : (s.raiseAll cs).index = s.index := rfl
@[simp] theorem State.raiseAll_sup (s : State) (cs : List Instr) : (s.raiseAll cs).sup = s.sup := rfl
@[simp] theorem State.raiseAll_lamps (s : State) (cs : List Instr) : (s.raiseAll cs).lamps = s.lamps := rfl
@[simp] theorem State.raiseAll_enables (s : State) (cs : List Instr) : (s.raiseAll cs).enables = s.enables := rfl
@[simp] theorem State.raiseAll_handler (s : State) (cs : List Instr) : (s.raiseAll cs).handler = s.handler := rfl
@[simp] theorem State.raiseAll_store (s : State) (cs : List Instr) : (s.raiseAll cs).store = s.store := rfl

@[simp] theorem State.latch_pending (s : State) (p : Port) (c : Cause) : (s.latch p c).pending = s.pending := rfl
@[simp] theorem State.latch_inFlight (s : State) (p : Port) (c : Cause) : (s.latch p c).inFlight = s.inFlight ++ [.latchRequest p ⟨c, none⟩] := rfl
@[simp] theorem State.latch_stores (s : State) (p : Port) (c : Cause) : (s.latch p c).stores = s.stores := rfl
@[simp] theorem State.latch_tears (s : State) (p : Port) (c : Cause) : (s.latch p c).tears = s.tears := rfl
@[simp] theorem State.latch_held (s : State) (p : Port) (c : Cause) : (s.latch p c).held = s.held := rfl
@[simp] theorem State.latch_srr (s : State) (p : Port) (c : Cause) : (s.latch p c).srr = s.srr := rfl
@[simp] theorem State.latch_ports (s : State) (p : Port) (c : Cause) : (s.latch p c).ports = s.ports := rfl
@[simp] theorem State.latch_queues (s : State) (p : Port) (c : Cause) : (s.latch p c).queues = s.queues := rfl
@[simp] theorem State.latch_rings (s : State) (p : Port) (c : Cause) : (s.latch p c).rings = s.rings := rfl
@[simp] theorem State.latch_faults (s : State) (p : Port) (c : Cause) : (s.latch p c).faults = s.faults := rfl
@[simp] theorem State.latch_pool (s : State) (p : Port) (c : Cause) : (s.latch p c).pool = s.pool := rfl
@[simp] theorem State.latch_slots (s : State) (p : Port) (c : Cause) : (s.latch p c).slots = s.slots := rfl
@[simp] theorem State.latch_index (s : State) (p : Port) (c : Cause) : (s.latch p c).index = s.index := rfl
@[simp] theorem State.latch_sup (s : State) (p : Port) (c : Cause) : (s.latch p c).sup = s.sup := rfl
@[simp] theorem State.latch_lamps (s : State) (p : Port) (c : Cause) : (s.latch p c).lamps = s.lamps := rfl
@[simp] theorem State.latch_enables (s : State) (p : Port) (c : Cause) : (s.latch p c).enables = s.enables := rfl
@[simp] theorem State.latch_handler (s : State) (p : Port) (c : Cause) : (s.latch p c).handler = s.handler := rfl
@[simp] theorem State.latch_store (s : State) (p : Port) (c : Cause) : (s.latch p c).store = s.store := rfl

@[simp] theorem State.begin_pending (s : State) (c : Instr) : (s.begin c).pending = s.pending := rfl
@[simp] theorem State.begin_inFlight (s : State) (c : Instr) : (s.begin c).inFlight = s.inFlight.erase c := rfl
@[simp] theorem State.begin_stores (s : State) (c : Instr) : (s.begin c).stores = [] := rfl
@[simp] theorem State.begin_tears (s : State) (c : Instr) : (s.begin c).tears = s.tears := rfl
@[simp] theorem State.begin_held (s : State) (c : Instr) : (s.begin c).held = s.held := rfl
@[simp] theorem State.begin_srr (s : State) (c : Instr) : (s.begin c).srr = s.srr := rfl
@[simp] theorem State.begin_ports (s : State) (c : Instr) : (s.begin c).ports = s.ports := rfl
@[simp] theorem State.begin_queues (s : State) (c : Instr) : (s.begin c).queues = s.queues := rfl
@[simp] theorem State.begin_rings (s : State) (c : Instr) : (s.begin c).rings = s.rings := rfl
@[simp] theorem State.begin_faults (s : State) (c : Instr) : (s.begin c).faults = s.faults := rfl
@[simp] theorem State.begin_pool (s : State) (c : Instr) : (s.begin c).pool = s.pool := rfl
@[simp] theorem State.begin_slots (s : State) (c : Instr) : (s.begin c).slots = s.slots := rfl
@[simp] theorem State.begin_index (s : State) (c : Instr) : (s.begin c).index = s.index := rfl
@[simp] theorem State.begin_sup (s : State) (c : Instr) : (s.begin c).sup = s.sup := rfl
@[simp] theorem State.begin_lamps (s : State) (c : Instr) : (s.begin c).lamps = s.lamps := rfl
@[simp] theorem State.begin_enables (s : State) (c : Instr) : (s.begin c).enables = s.enables := rfl
@[simp] theorem State.begin_handler (s : State) (c : Instr) : (s.begin c).handler = s.handler := rfl
@[simp] theorem State.begin_store (s : State) (c : Instr) : (s.begin c).store = s.store := rfl

/-! ### Storing several words -/

theorem State.putAll_eq (s : State) (ws : List (Nat × Word)) :
    s.putAll ws = { s with srr := s.srr.writeAll ws, stores := s.stores ++ ws } := by
  induction ws generalizing s with
  | nil => simp [State.putAll, Mem.writeAll]
  | cons w ws ih =>
    have h : s.putAll (w :: ws) = (s.put w.1 w.2).putAll ws := rfl
    rw [h, ih]
    simp [State.put, Mem.writeAll]

@[simp] theorem State.putAll_pending (s : State) (ws : List (Nat × Word)) : (s.putAll ws).pending = s.pending := by
  rw [State.putAll_eq]
@[simp] theorem State.putAll_inFlight (s : State) (ws : List (Nat × Word)) : (s.putAll ws).inFlight = s.inFlight := by
  rw [State.putAll_eq]
@[simp] theorem State.putAll_stores (s : State) (ws : List (Nat × Word)) : (s.putAll ws).stores = s.stores ++ ws := by
  rw [State.putAll_eq]
@[simp] theorem State.putAll_tears (s : State) (ws : List (Nat × Word)) : (s.putAll ws).tears = s.tears := by
  rw [State.putAll_eq]
@[simp] theorem State.putAll_held (s : State) (ws : List (Nat × Word)) : (s.putAll ws).held = s.held := by
  rw [State.putAll_eq]
@[simp] theorem State.putAll_srr (s : State) (ws : List (Nat × Word)) : (s.putAll ws).srr = s.srr.writeAll ws := by
  rw [State.putAll_eq]
@[simp] theorem State.putAll_ports (s : State) (ws : List (Nat × Word)) : (s.putAll ws).ports = s.ports := by
  rw [State.putAll_eq]
@[simp] theorem State.putAll_queues (s : State) (ws : List (Nat × Word)) : (s.putAll ws).queues = s.queues := by
  rw [State.putAll_eq]
@[simp] theorem State.putAll_rings (s : State) (ws : List (Nat × Word)) : (s.putAll ws).rings = s.rings := by
  rw [State.putAll_eq]
@[simp] theorem State.putAll_faults (s : State) (ws : List (Nat × Word)) : (s.putAll ws).faults = s.faults := by
  rw [State.putAll_eq]
@[simp] theorem State.putAll_pool (s : State) (ws : List (Nat × Word)) : (s.putAll ws).pool = s.pool := by
  rw [State.putAll_eq]
@[simp] theorem State.putAll_slots (s : State) (ws : List (Nat × Word)) : (s.putAll ws).slots = s.slots := by
  rw [State.putAll_eq]
@[simp] theorem State.putAll_index (s : State) (ws : List (Nat × Word)) : (s.putAll ws).index = s.index := by
  rw [State.putAll_eq]
@[simp] theorem State.putAll_sup (s : State) (ws : List (Nat × Word)) : (s.putAll ws).sup = s.sup := by
  rw [State.putAll_eq]
@[simp] theorem State.putAll_lamps (s : State) (ws : List (Nat × Word)) : (s.putAll ws).lamps = s.lamps := by
  rw [State.putAll_eq]
@[simp] theorem State.putAll_enables (s : State) (ws : List (Nat × Word)) : (s.putAll ws).enables = s.enables := by
  rw [State.putAll_eq]
@[simp] theorem State.putAll_handler (s : State) (ws : List (Nat × Word)) : (s.putAll ws).handler = s.handler := by
  rw [State.putAll_eq]
@[simp] theorem State.putAll_store (s : State) (ws : List (Nat × Word)) : (s.putAll ws).store = s.store := by
  rw [State.putAll_eq]

/-! ### Rewriting a view -/

/-- All that a rewrite does (R14). -/
theorem State.rewrite_eq (s : State) (c : Nat) (ws : List (Nat × Word)) :
    s.rewrite c ws =
      s.putAll ((c, s.srr.read c + 1) :: ws ++
        [(c, ((s.srr.write c (s.srr.read c + 1)).writeAll ws).read c + 1)]) := by
  simp [State.rewrite, State.putAll_eq, State.put, Mem.writeAll]

@[simp] theorem State.rewrite_pending (s : State) (c : Nat) (ws : List (Nat × Word)) : (s.rewrite c ws).pending = s.pending := by
  rw [State.rewrite_eq, State.putAll_pending]
@[simp] theorem State.rewrite_inFlight (s : State) (c : Nat) (ws : List (Nat × Word)) : (s.rewrite c ws).inFlight = s.inFlight := by
  rw [State.rewrite_eq, State.putAll_inFlight]
@[simp] theorem State.rewrite_tears (s : State) (c : Nat) (ws : List (Nat × Word)) : (s.rewrite c ws).tears = s.tears := by
  rw [State.rewrite_eq, State.putAll_tears]
@[simp] theorem State.rewrite_held (s : State) (c : Nat) (ws : List (Nat × Word)) : (s.rewrite c ws).held = s.held := by
  rw [State.rewrite_eq, State.putAll_held]
@[simp] theorem State.rewrite_ports (s : State) (c : Nat) (ws : List (Nat × Word)) : (s.rewrite c ws).ports = s.ports := by
  rw [State.rewrite_eq, State.putAll_ports]
@[simp] theorem State.rewrite_queues (s : State) (c : Nat) (ws : List (Nat × Word)) : (s.rewrite c ws).queues = s.queues := by
  rw [State.rewrite_eq, State.putAll_queues]
@[simp] theorem State.rewrite_rings (s : State) (c : Nat) (ws : List (Nat × Word)) : (s.rewrite c ws).rings = s.rings := by
  rw [State.rewrite_eq, State.putAll_rings]
@[simp] theorem State.rewrite_faults (s : State) (c : Nat) (ws : List (Nat × Word)) : (s.rewrite c ws).faults = s.faults := by
  rw [State.rewrite_eq, State.putAll_faults]
@[simp] theorem State.rewrite_pool (s : State) (c : Nat) (ws : List (Nat × Word)) : (s.rewrite c ws).pool = s.pool := by
  rw [State.rewrite_eq, State.putAll_pool]
@[simp] theorem State.rewrite_slots (s : State) (c : Nat) (ws : List (Nat × Word)) : (s.rewrite c ws).slots = s.slots := by
  rw [State.rewrite_eq, State.putAll_slots]
@[simp] theorem State.rewrite_index (s : State) (c : Nat) (ws : List (Nat × Word)) : (s.rewrite c ws).index = s.index := by
  rw [State.rewrite_eq, State.putAll_index]
@[simp] theorem State.rewrite_sup (s : State) (c : Nat) (ws : List (Nat × Word)) : (s.rewrite c ws).sup = s.sup := by
  rw [State.rewrite_eq, State.putAll_sup]
@[simp] theorem State.rewrite_lamps (s : State) (c : Nat) (ws : List (Nat × Word)) : (s.rewrite c ws).lamps = s.lamps := by
  rw [State.rewrite_eq, State.putAll_lamps]
@[simp] theorem State.rewrite_enables (s : State) (c : Nat) (ws : List (Nat × Word)) : (s.rewrite c ws).enables = s.enables := by
  rw [State.rewrite_eq, State.putAll_enables]
@[simp] theorem State.rewrite_handler (s : State) (c : Nat) (ws : List (Nat × Word)) : (s.rewrite c ws).handler = s.handler := by
  rw [State.rewrite_eq, State.putAll_handler]
@[simp] theorem State.rewrite_store (s : State) (c : Nat) (ws : List (Nat × Word)) : (s.rewrite c ws).store = s.store := by
  rw [State.rewrite_eq, State.putAll_store]

@[simp] theorem State.publishRecord_pending (s : State) (i : SlotNo) : (s.publishRecord i).pending = s.pending := by
  simp [State.publishRecord]
@[simp] theorem State.publishRecord_inFlight (s : State) (i : SlotNo) : (s.publishRecord i).inFlight = s.inFlight := by
  simp [State.publishRecord]
@[simp] theorem State.publishRecord_tears (s : State) (i : SlotNo) : (s.publishRecord i).tears = s.tears := by
  simp [State.publishRecord]
@[simp] theorem State.publishRecord_held (s : State) (i : SlotNo) : (s.publishRecord i).held = s.held := by
  simp [State.publishRecord]
@[simp] theorem State.publishRecord_ports (s : State) (i : SlotNo) : (s.publishRecord i).ports = s.ports := by
  simp [State.publishRecord]
@[simp] theorem State.publishRecord_queues (s : State) (i : SlotNo) : (s.publishRecord i).queues = s.queues := by
  simp [State.publishRecord]
@[simp] theorem State.publishRecord_rings (s : State) (i : SlotNo) : (s.publishRecord i).rings = s.rings := by
  simp [State.publishRecord]
@[simp] theorem State.publishRecord_faults (s : State) (i : SlotNo) : (s.publishRecord i).faults = s.faults := by
  simp [State.publishRecord]
@[simp] theorem State.publishRecord_pool (s : State) (i : SlotNo) : (s.publishRecord i).pool = s.pool := by
  simp [State.publishRecord]
@[simp] theorem State.publishRecord_slots (s : State) (i : SlotNo) : (s.publishRecord i).slots = s.slots := by
  simp [State.publishRecord]
@[simp] theorem State.publishRecord_index (s : State) (i : SlotNo) : (s.publishRecord i).index = s.index := by
  simp [State.publishRecord]
@[simp] theorem State.publishRecord_sup (s : State) (i : SlotNo) : (s.publishRecord i).sup = s.sup := by
  simp [State.publishRecord]
@[simp] theorem State.publishRecord_lamps (s : State) (i : SlotNo) : (s.publishRecord i).lamps = s.lamps := by
  simp [State.publishRecord]
@[simp] theorem State.publishRecord_enables (s : State) (i : SlotNo) : (s.publishRecord i).enables = s.enables := by
  simp [State.publishRecord]
@[simp] theorem State.publishRecord_handler (s : State) (i : SlotNo) : (s.publishRecord i).handler = s.handler := by
  simp [State.publishRecord]
@[simp] theorem State.publishRecord_store (s : State) (i : SlotNo) : (s.publishRecord i).store = s.store := by
  simp [State.publishRecord]

@[simp] theorem State.publishHeader_pending (s : State) (b : BufNo) : (s.publishHeader b).pending = s.pending := by
  simp [State.publishHeader]
@[simp] theorem State.publishHeader_inFlight (s : State) (b : BufNo) : (s.publishHeader b).inFlight = s.inFlight := by
  simp [State.publishHeader]
@[simp] theorem State.publishHeader_tears (s : State) (b : BufNo) : (s.publishHeader b).tears = s.tears := by
  simp [State.publishHeader]
@[simp] theorem State.publishHeader_held (s : State) (b : BufNo) : (s.publishHeader b).held = s.held := by
  simp [State.publishHeader]
@[simp] theorem State.publishHeader_ports (s : State) (b : BufNo) : (s.publishHeader b).ports = s.ports := by
  simp [State.publishHeader]
@[simp] theorem State.publishHeader_queues (s : State) (b : BufNo) : (s.publishHeader b).queues = s.queues := by
  simp [State.publishHeader]
@[simp] theorem State.publishHeader_rings (s : State) (b : BufNo) : (s.publishHeader b).rings = s.rings := by
  simp [State.publishHeader]
@[simp] theorem State.publishHeader_faults (s : State) (b : BufNo) : (s.publishHeader b).faults = s.faults := by
  simp [State.publishHeader]
@[simp] theorem State.publishHeader_pool (s : State) (b : BufNo) : (s.publishHeader b).pool = s.pool := by
  simp [State.publishHeader]
@[simp] theorem State.publishHeader_slots (s : State) (b : BufNo) : (s.publishHeader b).slots = s.slots := by
  simp [State.publishHeader]
@[simp] theorem State.publishHeader_index (s : State) (b : BufNo) : (s.publishHeader b).index = s.index := by
  simp [State.publishHeader]
@[simp] theorem State.publishHeader_sup (s : State) (b : BufNo) : (s.publishHeader b).sup = s.sup := by
  simp [State.publishHeader]
@[simp] theorem State.publishHeader_lamps (s : State) (b : BufNo) : (s.publishHeader b).lamps = s.lamps := by
  simp [State.publishHeader]
@[simp] theorem State.publishHeader_enables (s : State) (b : BufNo) : (s.publishHeader b).enables = s.enables := by
  simp [State.publishHeader]
@[simp] theorem State.publishHeader_handler (s : State) (b : BufNo) : (s.publishHeader b).handler = s.handler := by
  simp [State.publishHeader]
@[simp] theorem State.publishHeader_store (s : State) (b : BufNo) : (s.publishHeader b).store = s.store := by
  simp [State.publishHeader]

@[simp] theorem State.publishFault_pending (s : State) (f : FaultNo) : (s.publishFault f).pending = s.pending := by
  simp [State.publishFault]
@[simp] theorem State.publishFault_inFlight (s : State) (f : FaultNo) : (s.publishFault f).inFlight = s.inFlight := by
  simp [State.publishFault]
@[simp] theorem State.publishFault_tears (s : State) (f : FaultNo) : (s.publishFault f).tears = s.tears := by
  simp [State.publishFault]
@[simp] theorem State.publishFault_held (s : State) (f : FaultNo) : (s.publishFault f).held = s.held := by
  simp [State.publishFault]
@[simp] theorem State.publishFault_ports (s : State) (f : FaultNo) : (s.publishFault f).ports = s.ports := by
  simp [State.publishFault]
@[simp] theorem State.publishFault_queues (s : State) (f : FaultNo) : (s.publishFault f).queues = s.queues := by
  simp [State.publishFault]
@[simp] theorem State.publishFault_rings (s : State) (f : FaultNo) : (s.publishFault f).rings = s.rings := by
  simp [State.publishFault]
@[simp] theorem State.publishFault_faults (s : State) (f : FaultNo) : (s.publishFault f).faults = s.faults := by
  simp [State.publishFault]
@[simp] theorem State.publishFault_pool (s : State) (f : FaultNo) : (s.publishFault f).pool = s.pool := by
  simp [State.publishFault]
@[simp] theorem State.publishFault_slots (s : State) (f : FaultNo) : (s.publishFault f).slots = s.slots := by
  simp [State.publishFault]
@[simp] theorem State.publishFault_index (s : State) (f : FaultNo) : (s.publishFault f).index = s.index := by
  simp [State.publishFault]
@[simp] theorem State.publishFault_sup (s : State) (f : FaultNo) : (s.publishFault f).sup = s.sup := by
  simp [State.publishFault]
@[simp] theorem State.publishFault_lamps (s : State) (f : FaultNo) : (s.publishFault f).lamps = s.lamps := by
  simp [State.publishFault]
@[simp] theorem State.publishFault_enables (s : State) (f : FaultNo) : (s.publishFault f).enables = s.enables := by
  simp [State.publishFault]
@[simp] theorem State.publishFault_handler (s : State) (f : FaultNo) : (s.publishFault f).handler = s.handler := by
  simp [State.publishFault]
@[simp] theorem State.publishFault_store (s : State) (f : FaultNo) : (s.publishFault f).store = s.store := by
  simp [State.publishFault]

@[simp] theorem State.publishIndex_pending (s : State) : s.publishIndex.pending = s.pending := by
  simp [State.publishIndex]
@[simp] theorem State.publishIndex_inFlight (s : State) : s.publishIndex.inFlight = s.inFlight := by
  simp [State.publishIndex]
@[simp] theorem State.publishIndex_tears (s : State) : s.publishIndex.tears = s.tears := by
  simp [State.publishIndex]
@[simp] theorem State.publishIndex_held (s : State) : s.publishIndex.held = s.held := by
  simp [State.publishIndex]
@[simp] theorem State.publishIndex_ports (s : State) : s.publishIndex.ports = s.ports := by
  simp [State.publishIndex]
@[simp] theorem State.publishIndex_queues (s : State) : s.publishIndex.queues = s.queues := by
  simp [State.publishIndex]
@[simp] theorem State.publishIndex_rings (s : State) : s.publishIndex.rings = s.rings := by
  simp [State.publishIndex]
@[simp] theorem State.publishIndex_faults (s : State) : s.publishIndex.faults = s.faults := by
  simp [State.publishIndex]
@[simp] theorem State.publishIndex_pool (s : State) : s.publishIndex.pool = s.pool := by
  simp [State.publishIndex]
@[simp] theorem State.publishIndex_slots (s : State) : s.publishIndex.slots = s.slots := by
  simp [State.publishIndex]
@[simp] theorem State.publishIndex_index (s : State) : s.publishIndex.index = s.index := by
  simp [State.publishIndex]
@[simp] theorem State.publishIndex_sup (s : State) : s.publishIndex.sup = s.sup := by
  simp [State.publishIndex]
@[simp] theorem State.publishIndex_lamps (s : State) : s.publishIndex.lamps = s.lamps := by
  simp [State.publishIndex]
@[simp] theorem State.publishIndex_enables (s : State) : s.publishIndex.enables = s.enables := by
  simp [State.publishIndex]
@[simp] theorem State.publishIndex_handler (s : State) : s.publishIndex.handler = s.handler := by
  simp [State.publishIndex]
@[simp] theorem State.publishIndex_store (s : State) : s.publishIndex.store = s.store := by
  simp [State.publishIndex]

end Sys2Proof.Machine
end

