-- ==== Sys2Proof/Laws/Ops.lean ====
section
/-! SUPPORT. One lemma for each shared operation that says all it does, which proofs cite instead of unfolding it. -/

namespace Sys2Proof.Machine

/-! ### Taking a command -/

theorem State.take_held {s : State} (h : s.held = true) (c : Instr) (f : State → State) :
    s.take c f = .next (s.begin c) := by
  simp [State.take, h]

theorem State.take_free {s : State} (h : s.held = false) (c : Instr) (f : State → State) :
    s.take c f = .next (f (s.begin c)) := by
  simp [State.take, h]

theorem State.takeUp_idle {s : State} (h : s.held = true ∨ s.sup.mode = .startUp) (c : Instr) (f : State → State) :
    s.takeUp c f = .next (s.begin c) := by
  simp only [State.takeUp, if_pos h]

theorem State.takeUp_free {s : State} (h : s.held = false) (hm : s.sup.mode ≠ .startUp) (c : Instr)
    (f : State → State) : s.takeUp c f = .next (f (s.begin c)) := by
  simp [State.takeUp, h, hm]

/-- A command of `take` answers one of two next states. -/
theorem State.take_next {s t : State} {c : Instr} {f : State → State} (h : s.take c f = .next t) :
    t = s.begin c ∨ (s.held = false ∧ t = f (s.begin c)) := by
  unfold State.take at h
  split at h
  · exact .inl (by simpa using h.symm)
  · rename_i hh
    exact .inr ⟨by simpa using hh, by simpa using h.symm⟩

theorem State.takeUp_next {s t : State} {c : Instr} {f : State → State} (h : s.takeUp c f = .next t) :
    t = s.begin c ∨ (s.held = false ∧ s.sup.mode ≠ .startUp ∧ t = f (s.begin c)) := by
  unfold State.takeUp at h
  split at h
  · exact .inl (by simpa using h.symm)
  · rename_i hh
    rw [not_or] at hh
    exact .inr ⟨by simpa using hh.1, hh.2, by simpa using h.symm⟩

/-! ### Views -/

/-- The fault status view: what is stored, and in which order (R14, R52). -/
theorem State.publishFault_eq (s : State) (f : FaultNo) :
    s.publishFault f =
      let e := s.faults[f]
      let v := faultView f
      let old := s.srr.read (v + 3)
      let c := bits old 10 6
      s.putAll [(v + 3, refsWord (bits old 0 10) (c + 1)), (v, e.stateWord), (v + 1, lowWord e.accWord),
        (v + 2, highWord e.accWord), (v + 3, refsWord e.refs (c + 1)), (v + 3, refsWord e.refs (c + 2))] := by
  simp [State.publishFault, State.putAll_eq, State.put, Mem.writeAll]

/-- One event's change of an entry: the entry, and its view only where a published field changed (R52). -/
theorem State.updateFault_cases (s : State) (f : FaultNo) (e : FaultEntry) :
    ((s.faults[f]).published = e.published ∧ s.updateFault f e = s.setFault f e) ∨
    ((s.faults[f]).published ≠ e.published ∧ s.updateFault f e = (s.setFault f e).publishFault f) := by
  by_cases h : (s.faults[f]).published = e.published
  · exact .inl ⟨h, if_pos h⟩
  · exact .inr ⟨h, if_neg h⟩

@[simp] theorem State.updateFault_faults (s : State) (f : FaultNo) (e : FaultEntry) :
    (s.updateFault f e).faults = s.faults.set f e := by
  rcases s.updateFault_cases f e with ⟨_, h⟩ | ⟨_, h⟩ <;> rw [h] <;> simp

@[simp] theorem State.updateFault_inFlight (s : State) (f : FaultNo) (e : FaultEntry) :
    (s.updateFault f e).inFlight = s.inFlight := by
  rcases s.updateFault_cases f e with ⟨_, h⟩ | ⟨_, h⟩ <;> rw [h] <;> simp

/-- A change of an entry reaches the entry, and the SRR, no further. -/
theorem State.updateFault_frame (s : State) (f : FaultNo) (e : FaultEntry) :
    s.updateFault f e =
      { s with faults := s.faults.set f e, srr := (s.updateFault f e).srr, stores := (s.updateFault f e).stores } := by
  rcases s.updateFault_cases f e with ⟨_, h⟩ | ⟨_, h⟩ <;> rw [h]
  · rfl
  · rw [State.publishFault_eq, State.putAll_eq]
    rfl

/-- A fault's view is the only place a change of its entry stores to. -/
theorem State.updateFault_read (s : State) (f : FaultNo) (e : FaultEntry) (a : Nat) (h : ¬ inFaultView f a) :
    (s.updateFault f e).srr.read a = s.srr.read a := by
  rcases s.updateFault_cases f e with ⟨_, hu⟩ | ⟨_, hu⟩ <;> rw [hu]
  · rfl
  · rw [State.publishFault_eq, State.putAll_srr, Mem.read_writeAll_other]
    · rfl
    · intro w hw
      simp only [List.mem_cons, List.not_mem_nil, or_false] at hw
      unfold inFaultView at h
      rcases hw with rfl | rfl | rfl | rfl | rfl | rfl <;> dsimp only <;> omega

/-! ### The mode -/

@[simp] theorem State.changeMode_mode (s : State) (m : Mode) : (s.changeMode m).sup.mode = m := by
  unfold State.changeMode
  dsimp only
  split <;> (try split) <;> rfl

/-- A change of mode: the mode and its word, the lock released, and the notices (R129, R5, R28). -/
theorem State.changeMode_eq (s : State) (m : Mode) :
    s.changeMode m =
      { s with
        sup := { s.sup with mode := m },
        srr := s.srr.write aMode (BitVec.ofNat 16 m.code),
        stores := s.stores ++ [(aMode, BitVec.ofNat 16 m.code)],
        handler := { s.handler with fdtLocked := false },
        inFlight := s.inFlight ++ [.modeNotice] ++
          (if m = .ride ∧ s.sup.mode ≠ .ride then [.fcuModeNotice .entered]
           else if s.sup.mode = .ride ∧ m ≠ .ride then [.fcuModeNotice .left] else []) } := by
  unfold State.changeMode
  dsimp only
  split <;> (try split) <;> simp_all [State.setSup, State.put, State.setHandler, State.raise]

/-! ### Requests -/

/-- The completion of a request that is not orphaned: the result, then the state word, then REQDONE (R190). -/
theorem State.complete_eq {s : State} {p : Port} (h : s.handler.orphan.get p = false) (st r0 r1 r2 : Word) :
    s.complete p st r0 r1 r2 =
      (s.putAll [(aStatus p, st), (aResult p 0, r0), (aResult p 1, r1), (aResult p 2, r2),
        (aRequest p, if st = accepted then reqDone else reqRefused)]).latch p .reqdone := by
  simp [State.complete, h, State.putAll_eq, State.put, Mem.writeAll]

/-- The completion of an orphaned request stores nothing (R193). -/
theorem State.complete_orphan {s : State} {p : Port} (h : s.handler.orphan.get p = true) (st r0 r1 r2 : Word) :
    (s.complete p st r0 r1 r2).srr = s.srr ∧ (s.complete p st r0 r1 r2).stores = s.stores ∧
      (s.complete p st r0 r1 r2).handler.orphan.get p = false := by
  unfold State.complete
  rw [if_pos h]
  dsimp only
  split <;> simp [State.setHandler, State.raise]

/-- The end of a part of step 4 of START RIDE strikes it off, and raises START_RIDE where it was the last; it changes nothing
else (R145). -/
theorem State.partEnds_eq (s : State) (left : StartRun → StartRun) :
    s.partEnds left =
      { s with
        handler := { s.handler with start := s.handler.start.map left },
        inFlight := s.inFlight ++ match s.handler.start with
          | some r => if left r ≠ r ∧ (left r).rings = false ∧ (left r).lamps = false then [.startRide] else []
          | none => [] } := by
  unfold State.partEnds
  cases h : s.handler.start with
  | none =>
    simp only [Option.map_none, List.append_nil]
    rw [← h]
  | some r =>
    by_cases hr : left r = r
    · simp only [hr, Option.map_some, ne_eq, not_true_eq_false, false_and, if_true, if_false, List.append_nil]
      rw [← h]
    · rcases hl : (left r).rings <;> rcases hm : (left r).lamps <;> simp [hr, hl, hm, State.setHandler, State.raise]

/-! ### Folds over buffers and faults -/

/-- What every change of a buffer keeps, the whole pass keeps. -/
theorem State.forBuffers_keeps {P : State → Prop} {which : Capture → Bool} {change : State → BufNo → Capture → State}
    (hstep : ∀ s b c, P s → s.pool[b] = some c → which c = true → P (change s b c)) {s : State} (h : P s) :
    P (s.forBuffers which change) := by
  unfold State.forBuffers
  generalize List.finRange 24 = l
  induction l generalizing s with
  | nil => exact h
  | cons b l ih =>
    rw [List.foldl_cons]
    apply ih
    split
    · rename_i c hc
      split
      · exact hstep s b c h hc (by assumption)
      · exact h
    · exact h

/-- What every step of a fold keeps, the fold keeps. -/
theorem foldl_keeps {α β : Type} {P : β → Prop} {f : β → α → β} (hstep : ∀ b a, P b → P (f b a)) (l : List α) {b : β}
    (h : P b) : P (l.foldl f b) := by
  induction l generalizing b with
  | nil => exact h
  | cons a l ih => exact ih (hstep b a h)

/-- Copying samples stores words and does nothing else. -/
theorem State.copySamples_frame (s : State) (b : BufNo) (k : Nat) (xs : List Sample) :
    s.copySamples b k xs =
      { s with srr := (s.copySamples b k xs).srr, stores := (s.copySamples b k xs).stores } := by
  induction xs generalizing s k with
  | nil => rfl
  | cons x xs ih =>
    rw [State.copySamples, ih, State.putAll_eq]

/-- The frame header of a changed buffer is rewritten, and the manager told if a record holds it (R86). -/
theorem State.changeBuffer_frame (s : State) (b : BufNo) (c : Capture) :
    s.changeBuffer b c =
      { s with pool := s.pool.set b (some c), srr := (s.changeBuffer b c).srr, stores := (s.changeBuffer b c).stores,
               inFlight := s.inFlight ++ c.notice b } := by
  unfold State.changeBuffer State.publishHeader
  rw [State.rewrite_eq, State.putAll_eq]
  rfl

theorem State.freeBuffer_frame (s : State) (b : BufNo) :
    s.freeBuffer b =
      { s with pool := s.pool.set b none, srr := (s.freeBuffer b).srr, stores := (s.freeBuffer b).stores } := by
  unfold State.freeBuffer State.publishHeader
  rw [State.rewrite_eq, State.putAll_eq]
  rfl

/-! ### Handing changes on (R108) -/

theorem State.handSlot_frame (old : Vector (Option Record) 16) (s : State) (i : SlotNo) :
    State.handSlot old s i =
      { s with srr := (State.handSlot old s i).srr, stores := (State.handSlot old s i).stores,
               inFlight := (State.handSlot old s i).inFlight } := by
  unfold State.handSlot
  split
  · rfl
  · unfold State.publishRecord
    rw [State.rewrite_eq, State.putAll_eq]
    rfl

theorem State.handIndex_frame (account : Option FaultNo) (old : Vector (Option Record) 16) (s : State) :
    State.handIndex account old s =
      { s with index := indexOf s.slots, srr := (State.handIndex account old s).srr,
               stores := (State.handIndex account old s).stores,
               inFlight := (State.handIndex account old s).inFlight } := by
  unfold State.handIndex
  dsimp only
  split
  · rename_i h
    rw [h.1]
  · unfold State.publishIndex
    rw [State.rewrite_eq, State.putAll_eq]
    rfl

theorem State.handLamps_frame (account : Option FaultNo) (old : Vector (Option Record) 16) (s : State) (i : SlotNo) :
    State.handLamps account old s i = { s with inFlight := (State.handLamps account old s i).inFlight } := by
  unfold State.handLamps
  dsimp only
  split <;> rfl

/-- Handing on sets the index list in order and stores views; of the rest of the state it changes nothing but the events
in flight. -/
theorem State.handOn_frame (s : State) (account : Option FaultNo) (old : Vector (Option Record) 16) :
    s.handOn account old =
      { s with index := indexOf s.slots, srr := (s.handOn account old).srr, stores := (s.handOn account old).stores,
               inFlight := (s.handOn account old).inFlight } := by
  have h1 : ∀ (l : List SlotNo) (s : State), l.foldl (State.handSlot old) s =
      { s with srr := (l.foldl (State.handSlot old) s).srr, stores := (l.foldl (State.handSlot old) s).stores,
               inFlight := (l.foldl (State.handSlot old) s).inFlight } := by
    intro l
    induction l with
    | nil => intro s; rfl
    | cons i l ih =>
      intro s
      rw [List.foldl_cons, ih, State.handSlot_frame old s i]
  have h2 : ∀ (l : List SlotNo) (s : State), l.foldl (State.handLamps account old) s =
      { s with inFlight := (l.foldl (State.handLamps account old) s).inFlight } := by
    intro l
    induction l with
    | nil => intro s; rfl
    | cons i l ih =>
      intro s
      rw [List.foldl_cons, ih, State.handLamps_frame account old s i]
  unfold State.handOn
  dsimp only
  rw [h2, State.handIndex_frame, h1]

/-- Two slot vectors have the same members exactly when each slot holds records of one fault in both, or none. -/
theorem membersChanged_eq_false {old new : Vector (Option Record) 16} :
    membersChanged old new = false ↔ ∀ i : SlotNo, (old[i].map fun r => r.fault) = new[i].map fun r => r.fault := by
  simp [membersChanged]

/-- The index list is left alone, and STORE not requested, just where the sequence and the members stand (R108, R113,
R119). -/
theorem State.handIndex_cases (account : Option FaultNo) (old : Vector (Option Record) 16) (s : State) :
    (indexOf s.slots = s.index ∧ membersChanged old s.slots = false ∧ State.handIndex account old s = s) ∨
    (¬ (indexOf s.slots = s.index ∧ membersChanged old s.slots = false) ∧
      State.handIndex account old s = ((s.setIndex (indexOf s.slots)).publishIndex).raiseAll
        [.latchRequest .e ⟨.store, account⟩, .latchRequest .a ⟨.store, account⟩]) := by
  by_cases h : indexOf s.slots = s.index ∧ membersChanged old s.slots = false
  · exact .inl ⟨h.1, h.2, if_pos h⟩
  · exact .inr ⟨h, if_neg h⟩

/-! ### The build of TAKE DEFINITIONS -/

/-- The build of one fault's entry hands on to the next fault's, or, after the last, reconnects the records (R26). -/
theorem State.buildNext_cases (s : State) (f : FaultNo) (r : TakeRun) :
    (∃ h : f.val + 1 < 128,
      s.buildNext f r =
        let b := s.buildEntry r.found[f] f
        (b.setHandler { b.handler with take := some { r with next := some ⟨f.val + 1, h⟩ } }).raise .takeDefinitions) ∨
    (f.val = 127 ∧ s.buildNext f r =
      let b := s.buildEntry r.found[f] f
      (b.setHandler { b.handler with take := some { r with next := none } }).reconnect.raise
        .takeDefinitionsBuildDone) := by
  by_cases h : f.val + 1 < 128
  · exact .inl ⟨h, by simp [State.buildNext, h]⟩
  · exact .inr ⟨by omega, by simp [State.buildNext, h]⟩

/-! ### The Attention Unit -/

/-- Storing a mask word again is left out where it shows the value, or a later store's mask change is in flight (R183). -/
theorem State.showMask_cases (s : State) (p : Port) (which : MaskWord) (v : Word) :
    s.showMask p which v = s ∨
    (s.srr.read (aMask p which) ≠ v ∧ s.showMask p which v = s.put (aMask p which) v) := by
  unfold State.showMask
  split
  · exact .inl rfl
  · rename_i h
    exact .inr ⟨fun e => h (.inl e), rfl⟩

/-- The latched set becomes the value given, whichever way the top cause comes out (R182). -/
theorem State.setLatched_latched (s : State) (p : Port) (v : Word) :
    (s.setLatched p v).srr.read (aLatched p) = v := by
  unfold State.setLatched
  split
  · assumption
  · unfold State.refreshTop
    dsimp only
    split
    · simp
    · rw [State.put_srr, Mem.read_write_other, State.put_srr, Mem.read_write_same]
      cases p <;> decide

/-- After a change of the latched set the top cause is that of the set (R182). -/
theorem State.refreshTop_top (s : State) (p : Port) :
    (s.refreshTop p).srr.read (aTopCause p) = topCause (s.srr.read (aOrder p)) (s.srr.read (aLatched p)) := by
  unfold State.refreshTop
  dsimp only
  split
  · assumption
  · simp

/-! ### The load (R161) -/

/-- Showing a loaded record stores its view and raises its lamp notice, if it has one; nothing else changes (R166, R172). -/
theorem State.showLoaded_frame (s : State) (i : SlotNo) :
    s.showLoaded i =
      { s with srr := (s.showLoaded i).srr, stores := (s.showLoaded i).stores, inFlight := (s.showLoaded i).inFlight } := by
  unfold State.showLoaded
  split
  · rw [State.handLamps_frame]
    unfold State.publishRecord
    rw [State.rewrite_eq, State.putAll_eq]
  · rfl

end Sys2Proof.Machine
end

