-- ==== Sys2Proof/Laws/PerInstr.lean ====
section
/-! SUPPORT. Statements about every command, one lemma for each constructor of Instr. -/

namespace Sys2Proof.Laws.EncodedWhole

/-- What a transaction spells: a command that is spelt comes from outside the part, its transaction has at least the
command byte, and fewer than eight bits stand behind the last whole byte. -/
def Statement (i : Instr) : Prop :=
  ∀ bs k, encodeTransaction i = some (bs, k) → i.block = .outside ∧ bs ≠ [] ∧ k < 8

theorem read (port : Port) (burst : Burst) (count : Clocked Nat) : Statement (.read port burst count) := by
  intro bs k h
  cases burst with
  | opens w =>
    simp only [encodeTransaction, Option.some.injEq, Prod.mk.injEq] at h
    obtain ⟨rfl, rfl⟩ := h
    exact ⟨rfl, by simp, by omega⟩
  | cut bytes =>
    simp only [encodeTransaction, Option.some.injEq, Prod.mk.injEq] at h
    obtain ⟨rfl, rfl⟩ := h
    exact ⟨rfl, by simp, by omega⟩
  | continues => cases h

theorem write (port : Port) (burst : Burst) (words : Clocked (List Word)) :
    Statement (.write port burst words) := by
  intro bs k h
  cases burst with
  | opens w =>
    simp only [encodeTransaction, Option.some.injEq, Prod.mk.injEq] at h
    obtain ⟨rfl, rfl⟩ := h
    exact ⟨rfl, by simp, by omega⟩
  | cut bytes =>
    simp only [encodeTransaction, Option.some.injEq, Prod.mk.injEq] at h
    obtain ⟨rfl, rfl⟩ := h
    exact ⟨rfl, by simp, by omega⟩
  | continues => cases h

theorem swap (port : Port) (form : SwapForm) : Statement (.swap port form) := by
  intro bs k h
  cases form with
  | whole w x y n =>
    simp only [encodeTransaction, Option.some.injEq, Prod.mk.injEq] at h
    obtain ⟨rfl, rfl⟩ := h
    exact ⟨rfl, by simp, by omega⟩
  | cut bytes =>
    simp only [encodeTransaction, Option.some.injEq, Prod.mk.injEq] at h
    obtain ⟨rfl, rfl⟩ := h
    exact ⟨rfl, by simp, by omega⟩

theorem status (port : Port) (opens : Bool) (count : Nat) : Statement (.status port opens count) := by
  intro bs k h
  cases opens with
  | true =>
    simp only [encodeTransaction, Option.some.injEq, Prod.mk.injEq] at h
    obtain ⟨rfl, rfl⟩ := h
    exact ⟨rfl, by simp, by omega⟩
  | false => cases h

theorem restart (port : Port) (extraBits : Nat) : Statement (.restart port extraBits) := by
  intro bs k h
  simp only [encodeTransaction, Option.some.injEq, Prod.mk.injEq] at h
  obtain ⟨rfl, rfl⟩ := h
  exact ⟨rfl, by simp, by omega⟩

theorem badCommand (port : Port) (byte : Byte) (extra : Nat) : Statement (.badCommand port byte extra) := by
  intro bs k h
  simp only [encodeTransaction, Option.some.injEq, Prod.mk.injEq] at h
  obtain ⟨rfl, rfl⟩ := h
  exact ⟨rfl, by simp, by omega⟩

theorem topTaken (port : Port) (top : Word) : Statement (.topTaken port top) := by
  intro bs k h
  cases h

theorem levelReEvaluation (port : Port) (level : Word) : Statement (.levelReEvaluation port level) := by
  intro bs k h
  cases h

theorem recordTake (port : Port) : Statement (.recordTake port) := by
  intro bs k h
  cases h

theorem queueDrained (port : Port) : Statement (.queueDrained port) := by
  intro bs k h
  cases h

theorem intakeRestart (port : Port) : Statement (.intakeRestart port) := by
  intro bs k h
  cases h

theorem headWritten (port : Port) (head : Word) : Statement (.headWritten port head) := by
  intro bs k h
  cases h

theorem qualificationArrival (ring : Port) (time : Time) (ch0 : Word) :
    Statement (.qualificationArrival ring time ch0) := by
  intro bs k h
  cases h

theorem ringStateReport (ring : Port) (state : RingState) : Statement (.ringStateReport ring state) := by
  intro bs k h
  cases h

theorem stallTimerExpiry (ring : Port) : Statement (.stallTimerExpiry ring) := by
  intro bs k h
  cases h

theorem fcuModeNotice (edge : RideEdge) : Statement (.fcuModeNotice edge) := by
  intro bs k h
  cases h

theorem ringRestart (port : Port) : Statement (.ringRestart port) := by
  intro bs k h
  cases h

theorem trigger (fault : FaultNo) (episode : EpisodeId) (ring : Port) (pre post priority : BitVec 4) :
    Statement (.trigger fault episode ring pre post priority) := by
  intro bs k h
  cases h

theorem deadlineExpiry (buffer : BufNo) : Statement (.deadlineExpiry buffer) := by
  intro bs k h
  cases h

theorem confirmNotice (fault : FaultNo) (episode : EpisodeId) : Statement (.confirmNotice fault episode) := by
  intro bs k h
  cases h

theorem episodeClose (fault : FaultNo) (episode : EpisodeId) : Statement (.episodeClose fault episode) := by
  intro bs k h
  cases h

theorem entryResetDiscard (fault : FaultNo) (buffer : BufNo) : Statement (.entryResetDiscard fault buffer) := by
  intro bs k h
  cases h

theorem attachDirection (fault : FaultNo) (episode : EpisodeId) (slot : SlotNo) :
    Statement (.attachDirection fault episode slot) := by
  intro bs k h
  cases h

theorem discardDirection (fault : FaultNo) (episode : EpisodeId) : Statement (.discardDirection fault episode) := by
  intro bs k h
  cases h

theorem bufferFree (slot : SlotNo) (buffer : Accounted (Option BufNo)) : Statement (.bufferFree slot buffer) := by
  intro bs k h
  cases h

theorem captureUnitClear (fault : FaultNo) : Statement (.captureUnitClear fault) := by
  intro bs k h
  cases h

theorem fcuRideEndEvent : Statement .fcuRideEndEvent := by
  intro bs k h
  cases h

theorem captureOpened (fault : FaultNo) (buffer : BufNo) (episode : EpisodeId) :
    Statement (.captureOpened fault buffer episode) := by
  intro bs k h
  cases h

theorem captureLost (fault : FaultNo) (lost : LostCapture) : Statement (.captureLost fault lost) := by
  intro bs k h
  cases h

theorem captureReleased (fault : FaultNo) (buffer : BufNo) (episode : EpisodeId) :
    Statement (.captureReleased fault buffer episode) := by
  intro bs k h
  cases h

theorem slotNotice (fault : FaultNo) (slot : Option SlotNo) (unstored : Option Bool) :
    Statement (.slotNotice fault slot unstored) := by
  intro bs k h
  cases h

theorem qualifierClear (fault : FaultNo) : Statement (.qualifierClear fault) := by
  intro bs k h
  cases h

theorem suspectCount : Statement .suspectCount := by
  intro bs k h
  cases h

theorem confirmEvent (fault : FaultNo) (episode : EpisodeId) (time : Time) (priority : BitVec 4) (lamp : LampField) (pattern : Pattern) (ringNone : Bool) :
    Statement (.confirmEvent fault episode time priority lamp pattern ringNone) := by
  intro bs k h
  cases h

theorem heal (fault : FaultNo) : Statement (.heal fault) := by
  intro bs k h
  cases h

theorem frameChangeNotice (slot : SlotNo) (buffer : BufNo) (fault : FaultNo) (episode : EpisodeId) (state : CaptureState) (preShort gap : Bool) :
    Statement (.frameChangeNotice slot buffer fault episode state preShort gap) := by
  intro bs k h
  cases h

theorem noFrameNotice (slot : SlotNo) (fault : FaultNo) (episode : EpisodeId) :
    Statement (.noFrameNotice slot fault episode) := by
  intro bs k h
  cases h

theorem clearEvent (fault : FaultNo) : Statement (.clearEvent fault) := by
  intro bs k h
  cases h

theorem managerRideEndEvent (qualifying : Bool) : Statement (.managerRideEndEvent qualifying) := by
  intro bs k h
  cases h

theorem takeDefinitions : Statement .takeDefinitions := by
  intro bs k h
  cases h

theorem returnToConfig : Statement .returnToConfig := by
  intro bs k h
  cases h

theorem startRide : Statement .startRide := by
  intro bs k h
  cases h

theorem endRide : Statement .endRide := by
  intro bs k h
  cases h

theorem poolSettled : Statement .poolSettled := by
  intro bs k h
  cases h

theorem closingComplete : Statement .closingComplete := by
  intro bs k h
  cases h

theorem clearFaults (argument : Word) : Statement (.clearFaults argument) := by
  intro bs k h
  cases h

theorem absReady : Statement .absReady := by
  intro bs k h
  cases h

theorem requestPosted (port : Port) : Statement (.requestPosted port) := by
  intro bs k h
  cases h

theorem requestReleased (port : Port) : Statement (.requestReleased port) := by
  intro bs k h
  cases h

theorem waitingRequestTake (port : Port) : Statement (.waitingRequestTake port) := by
  intro bs k h
  cases h

theorem requestRestart (port : Port) : Statement (.requestRestart port) := by
  intro bs k h
  cases h

theorem latchRequest (port : Port) (cause : Accounted Cause) : Statement (.latchRequest port cause) := by
  intro bs k h
  cases h

theorem maskChange (port : Port) (which : MaskWord) (value : Word) : Statement (.maskChange port which value) := by
  intro bs k h
  cases h

theorem acknowledgement (port : Port) (value : Word) : Statement (.acknowledgement port value) := by
  intro bs k h
  cases h

theorem attentionRestart (port : Port) : Statement (.attentionRestart port) := by
  intro bs k h
  cases h

theorem rideClockTick : Statement .rideClockTick := by
  intro bs k h
  cases h

theorem bulbCheckExpiry : Statement .bulbCheckExpiry := by
  intro bs k h
  cases h

theorem flashTick : Statement .flashTick := by
  intro bs k h
  cases h

theorem demandNotice (fault : FaultNo) : Statement (.demandNotice fault) := by
  intro bs k h
  cases h

theorem recordLampNotice (lamps : Accounted LampField) : Statement (.recordLampNotice lamps) := by
  intro bs k h
  cases h

theorem modeNotice : Statement .modeNotice := by
  intro bs k h
  cases h

theorem bulbCheckExpiryNotice : Statement .bulbCheckExpiryNotice := by
  intro bs k h
  cases h

theorem absReadyChangeNotice : Statement .absReadyChangeNotice := by
  intro bs k h
  cases h

theorem rideStartStep : Statement .rideStartStep := by
  intro bs k h
  cases h

theorem overcurrentDetection (lamp : Lamp) : Statement (.overcurrentDetection lamp) := by
  intro bs k h
  cases h

theorem dirtyMark (image : ImageId) : Statement (.dirtyMark image) := by
  intro bs k h
  cases h

theorem writeStart : Statement .writeStart := by
  intro bs k h
  cases h

theorem writeCompletion : Statement .writeCompletion := by
  intro bs k h
  cases h

theorem supplyLowChange (level : Bool) : Statement (.supplyLowChange level) := by
  intro bs k h
  cases h

theorem resetHold : Statement .resetHold := by
  intro bs k h
  cases h

theorem partReset : Statement .partReset := by
  intro bs k h
  cases h

theorem loadComplete : Statement .loadComplete := by
  intro bs k h
  cases h

theorem takeDefinitionsBuildDone : Statement .takeDefinitionsBuildDone := by
  intro bs k h
  cases h

theorem chipSelectRise (port : Port) : Statement (.chipSelectRise port) := by
  intro bs k h
  cases h

end Sys2Proof.Laws.EncodedWhole
end

