-- ==== Sys2Proof/Tests/Slice0.lean ====
section
/-! SUPPORT. Tests of the model: refusals of ill-formed commands, transactions written out byte by byte from the spec,
the spec's worked examples, one step of each kind on a small state, and for each statement a state and operands that meet
its hypotheses. Expected values are the spec's own, or worked out by hand from its rules. -/

open Sys2Proof Sys2Proof.Machine

namespace Sys2Proof.Tests

-- One theorem after another: each waits for the kernel, and a waiting thread holds its whole stack.
set_option Elab.async false

/-! ### Small states -/

/-- The part in a mode, with nothing waiting and nothing in flight. -/
def up (m : Mode) : State := { State.reset with inFlight := [], sup := { Supervisor.reset with mode := m } }

/-- The state after a command. -/
def after (c : Instr) (s : State) : State :=
  match exec c s with
  | .next t => t
  | _ => s

/-- Words stored before the test. -/
def State.given (s : State) (ws : List (Nat × Word)) : State := { s with srr := s.srr.writeAll ws }

/-- Fault 18 of spec 2.4. -/
def fault18 : Definition :=
  { source := .a, lamp := .abs, pattern := .steady, critical := false, fixed := false, jump := true, ring := some .a,
    priority := 12, lampHeal := 3, gF := 8192, gP := 2048, confirm := 40000, healMag := 20000, pre := 4, post := 6,
    aging := 40 }

/-- Fault 77 of spec 4.8. -/
def fault77 : Definition :=
  { source := .e, lamp := .none, pattern := .steady, critical := false, fixed := true, jump := false, ring := none,
    priority := 4, lampHeal := 1, gF := 500, gP := 250, confirm := 1500, healMag := 1000, pre := 0, post := 0,
    aging := 0 }

/-- Fault 3 of spec 4.8; its lamp is the engine lamp. -/
def fault3 : Definition :=
  { source := .e, lamp := .engine, pattern := .steady, critical := false, fixed := false, jump := false,
    ring := some .e, priority := 9, lampHeal := 1, gF := 4096, gP := 1024, confirm := 30000, healMag := 10000, pre := 5,
    post := 5, aging := 0 }

def State.knows (s : State) (f : FaultNo) (d : Definition) : State :=
  s.setFault f { FaultEntry.reset with defn := some d }

/-- A record of fault 18 as its first confirm leaves it. -/
def record18 : Record :=
  { state := .active, fault := 18, priority := 12, lamp := .abs, pattern := .steady, occurrence := 1, age := 0,
    lampLatch := true, clean := 0, firstRide := 45, lastRide := 45, firstFail := 900, lastConfirm := 1000, frame := none,
    frameStatus := .none, preShort := false, gap := false, episodeFlag := true, awaited := none }

/-- An open provisional capture of fault 18 on ring A, with one post sample still wanted. -/
def capture18 : Capture :=
  { holder := .provisional, fault := 18, priority := 12, ring := .a, episode := { number := 1, time := 900 },
    state := .opened, preWanted := 4, preGot := 0, postWanted := 1, postGot := 0, preShort := true, gap := false }

def State.holds (s : State) (b : BufNo) (c : Capture) : State := s.setBuffer b (some c)

def State.records (s : State) (i : SlotNo) (r : Record) : State :=
  { s with slots := s.slots.set i (some r), index := indexOf (s.slots.set i (some r)) }

/-! ### Ill-formed commands (the checks of WellFormed) -/

theorem test_valid_byte_is_no_bad_command : (Instr.badCommand .e 0xA1 0).wellFormed = false := by decide
theorem test_bad_byte_is_a_bad_command : (Instr.badCommand .e 0x55 0).wellFormed = true := by decide
theorem test_trigger_has_a_priority :
    (Instr.trigger 3 { number := 1, time := 5 } .e 5 5 0).wellFormed = false := by decide
theorem test_confirm_has_a_priority :
    (Instr.confirmEvent 3 { number := 1, time := 5 } 5 0 .none .steady true).wellFormed = false := by decide
theorem test_lamp_is_no_cause_of_port_a : (Instr.latchRequest .a ⟨.lamp, none⟩).wellFormed = false := by decide
theorem test_saved_is_no_cause_of_port_a : (Instr.latchRequest .a ⟨.saved, none⟩).wellFormed = false := by decide
theorem test_lamp_notice_names_a_lamp : (Instr.recordLampNotice ⟨.none, none⟩).wellFormed = false := by decide
theorem test_cut_read_has_at_most_one_address_byte :
    (Instr.read .e (.cut 2) ⟨0, false⟩).wellFormed = false ∧ (Instr.read .e (.cut 1) ⟨1, false⟩).wellFormed = false := by decide
theorem test_cut_write_has_no_word :
    (Instr.write .e (.cut 1) ⟨[5], false⟩).wellFormed = false ∧ (Instr.write .e (.cut 0) ⟨[], true⟩).wellFormed = false := by
  decide
theorem test_cut_swap_has_at_most_five_bytes :
    (Instr.swap .e (.cut 6)).wellFormed = false ∧ (Instr.swap .e (.cut 5)).wellFormed = true := by decide

/-! ### Transactions as bytes (R6 to R11) -/

theorem test_read_bytes :
    decodeTransaction .e [0xA1, 0x01, 0x05, 0, 0, 0, 0] 0 = [.read .e (.opens 0x0105) ⟨2, false⟩, .chipSelectRise .e] := by
  decide
theorem test_read_cut_in_its_address :
    decodeTransaction .e [0xA1, 0x01] 3 = [.read .e (.cut 1) ⟨0, false⟩, .chipSelectRise .e] := by decide
theorem test_read_cut_in_a_word :
    decodeTransaction .e [0xA1, 0x01, 0x05, 0] 0 = [.read .e (.opens 0x0105) ⟨0, true⟩, .chipSelectRise .e] := by decide
theorem test_write_bytes :
    decodeTransaction .a [0xA2, 0x01, 0x90, 0x12, 0x34, 0x56] 0
      = [.write .a (.opens 0x0190) ⟨[0x1234], true⟩, .chipSelectRise .a] := by decide
theorem test_swap_bytes :
    decodeTransaction .e [0xA4, 0x01, 0x00, 0, 0, 0, 1, 0, 0] 0
      = [.swap .e (.whole 0x0100 0 1 2), .chipSelectRise .e] := by decide
theorem test_status_bytes : decodeTransaction .e [0xA8, 0, 0] 0 = [.status .e true 2, .chipSelectRise .e] := by decide
theorem test_restart_bytes : decodeTransaction .a [0xAF] 0 = [.restart .a 0] := by decide
theorem test_restart_with_a_bit_more : decodeTransaction .a [0xAF] 1 = [.restart .a 1] := by decide
theorem test_unknown_byte : decodeTransaction .e [0x33, 1] 0 = [.badCommand .e 0x33 1, .chipSelectRise .e] := by decide
theorem test_no_word_spells_a_command : decodeTableWord 16 0x00A1 = none := by decide

/-! ### The spec's worked arithmetic -/

/-- The table of R54. -/
theorem test_steps_of_R54 :
    [stepOf 8192 16384, stepOf 2048 24576, stepOf 8192 32768, stepOf 8192 1, stepOf 1 16384, stepOf 1 16383,
      stepOf 3 16384, stepOf 100 0, stepOf 32767 32767, stepOf 32767 32768]
      = [4096, 1536, 8192, 1, 1, 1, 2, 1, 32766, 32767] := by decide

/-- Spec 3.5, "stamp reconstruction". -/
theorem test_stamps :
    [fullTime 196624 0xFFF0, fullTime 196624 0x0020, fullTime 196624 0x0400, fullTime 196624 0x0010,
      fullTime 256 0x0180, fullTime 256 0x00C0, fullTime 256 0x8000] = [196592, 196624, 132096, 196624, 256, 192, 0] := by
  decide

/-- Spec 2.4: the masks written back. -/
theorem test_masks_taken :
    [queueMaskTaken 600, queueMaskTaken 255, ringMaskTaken 40, ringMaskTaken 0] = [511, 255, 31, 15] := by decide

/-- R153: the check words of header and erased images. -/
theorem test_check_words :
    headerImage 45 = [(0, 0x4B07), (1, 0x002D), (2, 0x5A26)] ∧ headerImage 0 = [(0, 0x4B07), (2, 0x5A53)] ∧
      erasedImage = [(10, 0xA55A)] := by decide +kernel

/-- Spec 10.4: the top cause, flow first, as CONFIRM, then QFULL, then STORE are latched, and after the acknowledgement. -/
theorem test_top_causes :
    [topCause 1 0x0008, topCause 1 0x0208, topCause 1 0x0288, topCause 1 0x0080, topCause 1 0] = [4, 10, 10, 8, 0] := by
  decide

/-- R175: SLOW is on for phases 0 to 49 of 100, FAST for 0 to 19 of 40. -/
theorem test_flash_patterns :
    [demandLights .slow 49, demandLights .slow 50, demandLights .slow 150, demandLights .fast 19, demandLights .fast 20,
      demandLights .fast 40] = [true, false, false, true, false, true] := by decide

/-- Spec 2.4: the words of fault 18 and of fault 40, whose post count stands with no ring, as R16 lays them out. -/
theorem test_definitions_read :
    readDefinition (Mem.writeAll [] [(0x0490, 0x7945), (0x0491, 8192), (0x0492, 2048), (0x0493, 40000), (0x0495, 20000),
      (0x0497, 0x2864)]) 18 = .valid fault18 ∧
    readDefinition (Mem.writeAll [] [(0x0540, 0x2C00), (0x0541, 1), (0x0542, 1), (0x0543, 1), (0x0545, 1),
      (0x0547, 0x0050)]) 40 = .invalid ∧
    readDefinition [] 77 = .unused := by decide +kernel

/-- Spec 4.8, fault 18: five reports from UNTESTED, by accumulator, state, flags and trigger time. -/
def reports18 : List FaultEntry :=
  let e0 := { FaultEntry.reset with defn := some fault18 }
  let e1 := (applyReport 18 fault18 .fail 3 16384 100 e0).1
  let e2 := (applyReport 18 fault18 .pass 10 24576 200 e1).1
  let e3 := (applyReport 18 fault18 .fail 12 0x8000 300 e2).1
  let e4 := (applyReport 18 fault18 .fail 1 1 400 e3).1
  [e1, e2, e3, e4, (applyReport 18 fault18 .pass 255 32767 500 e4).1]

theorem test_fault_18 :
    reports18.map (fun e => (e.acc, e.phase, e.tested, e.confirmedRide, e.trigger)) =
      [(12288, .suspect, false, false, some 100), (-15360, .suspect, false, false, some 100),
        (40000, .confirmed, true, true, some 100), (40000, .confirmed, true, true, some 100),
        (-20000, .passed, true, true, none)] := by decide +kernel

/-- Spec 4.8, fault 18: the events of the confirm and of the heal. -/
theorem test_fault_18_events :
    (applyReport 18 fault18 .fail 12 0x8000 300 (reports18.getD 1 FaultEntry.reset)).2 =
      [.confirmNotice 18 { number := 1, time := 100 },
        .confirmEvent 18 { number := 1, time := 100 } 300 12 .abs .steady false,
        .latchRequest .a ⟨.confirm, some 18⟩, .demandNotice 18] ∧
    (applyReport 18 fault18 .fail 1 1 400 (reports18.getD 2 FaultEntry.reset)).2 = [] ∧
    (applyReport 18 fault18 .pass 255 32767 500 (reports18.getD 3 FaultEntry.reset)).2 = [.heal 18, .demandNotice 18] := by
  decide +kernel

/-- Spec 4.8, fault 77: nine reports, by accumulator and state. -/
theorem test_fault_77 :
    ([(ReportOutcome.pass, 2), (.fail, 1), (.untestable, 1), (.fail, 3), (.pass, 1), (.fail, 1), (.pass, 10), (.pass, 1),
        (.fail, 2)].foldl
      (fun (l : List (Int × Phase) × FaultEntry) r =>
        let e := (applyReport 77 fault77 r.1 r.2 5 9 l.2).1
        (l.1 ++ [(e.acc, e.phase)], e)) ([], { FaultEntry.reset with defn := some fault77 })).1 =
      [(-500, .passing), (0, .suspect), (0, .suspect), (1500, .confirmed), (1250, .recovering), (1500, .confirmed),
        (-1000, .passed), (-1000, .passed), (0, .suspect)] := by decide +kernel

/-- Spec 4.8, fault 3: trigger and confirm in one report, in order. -/
theorem test_fault_3 :
    let r := applyReport 3 fault3 .fail 255 32767 700 { FaultEntry.reset with defn := some fault3 }
    r.1.acc = 30000 ∧ r.1.phase = .confirmed ∧ r.2 =
      [.trigger 3 { number := 1, time := 700 } .e 5 5 9, .confirmNotice 3 { number := 1, time := 700 },
        .confirmEvent 3 { number := 1, time := 700 } 700 9 .engine .steady false,
        .latchRequest .e ⟨.confirm, some 3⟩, .demandNotice 3] := by decide +kernel

/-- R164: of two images of fault 21, the one confirmed in the later ride is kept. -/
theorem test_duplicates :
    keptBefore { record18 with lastRide := 46 } 3 { record18 with lastRide := 43 } 4 = true ∧
      keptBefore { record18 with lastRide := 43 } 3 { record18 with lastRide := 46 } 4 = false := by decide

/-! ### One step each -/

/-- R8, R13: a read wraps at the end of the SRR, and reads zeros in START-UP. -/
theorem test_read_wraps :
    (((after (.read .e (.opens 0x3FFF) ⟨2, false⟩) (State.given (up .idle) [(0x3FFF, 0xABCD), (0x0000, 0x0740)])).ports.get .e).sdo)
      = [0x02, 0, 0, 0xAB, 0xCD, 0x07, 0x40] ∧
    (((after (.read .e (.opens 0x3FFF) ⟨1, false⟩) (State.given (up .startUp) [(0x3FFF, 0xABCD)])).ports.get .e).sdo)
      = [0x00, 0, 0, 0, 0] := by decide +kernel

/-- R6, R8, R9: the bytes shifted out by a transaction that the chip select cuts off. -/
theorem test_bytes_of_cut_transactions :
    let s := State.given (up .idle) [(0x0000, 0x0740)]
    (((after (.read .e (.cut 1) ⟨0, false⟩) s).ports.get .e).sdo, ((after (.read .e (.opens 0) ⟨0, true⟩) s).ports.get .e).sdo,
      ((after (.write .e (.opens 0) ⟨[], true⟩) s).ports.get .e).sdo, ((after (.swap .e (.cut 3)) s).ports.get .e).sdo)
      = ([0x02, 0], [0x02, 0, 0, 0x07], [0x02, 0, 0, 0], [0x02, 0, 0, 0]) := by decide +kernel

/-- R196: a burst from the enable set to the acknowledge word, event by event. -/
theorem test_attention_burst :
    (after (.write .e (.opens 0x0108) ⟨[0x07FF, 0x0600, 1, 5, 2], false⟩) (up .config)).inFlight =
      [.maskChange .e .enable 0x07FF, .maskChange .e .polarity 0x0600, .latchRequest .e ⟨.access, none⟩,
        .acknowledgement .e 2] := by decide +kernel

/-- R3: port A's enable set never holds LAMP or SAVED. -/
theorem test_enable_of_port_a :
    (after (.write .a (.opens 0x0148) ⟨[0xFFFF], false⟩) (up .ride)).srr.read 0x0148 = 0x06DF := by decide +kernel

/-- R181, R185: a latch request that is taken before the mask change of a store finds the enable set without it. -/
theorem test_latch_before_a_mask_change :
    let s := after (.write .e (.opens 0x0108) ⟨[2], false⟩) (up .ride)
    let t := after (.maskChange .e .enable 2) s
    s.srr.read (aEnable .e) = 2 ∧ (after (.latchRequest .e ⟨.access, none⟩) s).srr.read (aLatched .e) = 0 ∧
      (after (.latchRequest .e ⟨.access, none⟩) t).srr.read (aLatched .e) = 2 := by decide +kernel

/-- R187: POSTED is stored over IDLE, not over TAKEN. -/
theorem test_posting :
    (after (.swap .e (.whole 0x0100 0 1 2)) (up .idle)).srr.read 0x0100 = 1 ∧
      (after (.swap .e (.whole 0x0100 2 1 2)) (State.given (up .idle) [(0x0100, 2)])).srr.read 0x0100 = 2 := by
  decide +kernel

/-- Spec 3.8: an overrun of queue A with capacity 16. -/
theorem test_overrun :
    let s := (up .ride).setQueue .a { Queue.reset with takenTop := 9, bottom := 65533, occupancy := 12 }
    let t := after (.topTaken .a 30) s
    (t.queues.a.takenTop, t.queues.a.bottom, t.queues.a.occupancy) = (30, 14, 16) ∧
      t.inFlight.head? = some (.latchRequest .a ⟨.overrun, none⟩) := by decide +kernel

/-- Spec 3.8: record index 65531 lies at 0x102C, and names fault 200. -/
theorem test_reject_detail :
    let s := State.given ((up .ride).setQueue .a
      { Queue.reset with takenTop := 65535, bottom := 65531, occupancy := 4 }) [(0x102C, 0x01C8)]
    let t := after (.recordTake .a) s
    (t.srr.read (aRejectReason .a), t.srr.read (aRejectFault .a), t.srr.read (aRejectIndex .a)) = (2, 200, 65531) ∧
      t.queues.a.bottom = 65532 := by decide +kernel

/-- Spec 5.2: head 40 after 60 is a backward move of ring A. -/
theorem test_backward_head :
    let s := ((up .ride).setRing .a { Tracker.reset with lastHead := 60, held := 32, capacity := 32, state := .live })
    let t := after (.headWritten .a 40) (State.holds s 4 capture18)
    (t.rings.a.lastHead, t.rings.a.held) = (40, 0) ∧ (t.pool[4].map fun c => c.gap) = some true ∧
      t.inFlight = [] := by decide +kernel

/-- Spec 7.3: a ring E sample 365 ticks after the last credits 50. -/
theorem test_gap_is_capped :
    let s := (up .ride).setSup { (up .ride).sup with engineRun := 20, previousE := some 10035 }
    let t := after (.qualificationArrival .e 10400 1100) s
    t.sup.engineRun = 70 ∧ t.srr.read 0x0006 = 70 := by decide +kernel

/-- R83, R134: the stall timer of a LIVE ring expires at its 50th tick. -/
theorem test_stall_tick :
    let s := (up .ride).setRing .e { Tracker.reset with state := .live, timer := some 49 }
    (after .rideClockTick s).inFlight = [.stallTimerExpiry .e, .flashTick] ∧
      (after (.stallTimerExpiry .e) (after .rideClockTick s)).srr.read (aRingState .e) = 2 := by decide +kernel

/-- R87, R92: a trigger opens the lowest free buffer; R97: its close frees it. -/
theorem test_trigger_and_close :
    let t := after (.trigger 18 { number := 1, time := 900 } .a 4 6 12)
      ((up .ride).setSup { (up .ride).sup with rideClock := 900 })
    t.inFlight = [.captureOpened 18 0 { number := 1, time := 900 }] ∧ t.srr.read 0x2800 = 0x0512 ∧
      t.srr.read 0x2807 = 2 ∧ (after (.episodeClose 18 { number := 1, time := 900 }) t).srr.read 0x2800 = 0 := by
  decide +kernel

/-- R96, R98: a confirmed capture is attached to the record of a slot. -/
theorem test_confirm_and_attach :
    let t := after (.confirmNotice 18 { number := 1, time := 900 }) (State.holds (up .ride) 4 capture18)
    (after (.attachDirection 18 { number := 1, time := 900 } 2) t).inFlight =
      [.frameChangeNotice 2 4 18 { number := 1, time := 900 } .opened true false] := by decide +kernel

/-- R111: a first confirm takes slot 0, and the list gains a slot. -/
theorem test_first_confirm :
    let t := after (.confirmEvent 18 { number := 1, time := 900 } 1000 12 .abs .steady false) (up .ride)
    t.index = [0] ∧ t.srr.read 0x1E00 = 1 ∧ t.inFlight =
      [.attachDirection 18 { number := 1, time := 900 } 0, .slotNotice 18 (some 0) (some false),
        .dirtyMark (.slot 0), .latchRequest .e ⟨.store, some 18⟩,
        .latchRequest .a ⟨.store, some 18⟩, .recordLampNotice ⟨.abs, some 18⟩] := by
  decide +kernel

/-- R118: a heal leaves a latched record ACTIVE, and changes nothing that the view shows. -/
theorem test_heal_of_a_latched_record :
    (after (.heal 18) (State.records (up .ride) 0 record18)).inFlight = [] := by decide +kernel

/-- R122, R123: a tested clean ride ages the record and takes one cycle of its lamp heal. -/
theorem test_lamp_heal_pass :
    let s := State.records ((up .closing).setFault 18
      { FaultEntry.reset with defn := some fault18, tested := true }) 0 { record18 with episodeFlag := false, clean := 2 }
    let t := after (.managerRideEndEvent true) s
    (t.slots[0].map fun r => (r.age, r.clean, r.lampLatch, r.state)) = some (1, 0, false, .stored) := by decide +kernel

/-- R189: a code of the other port is not permitted; an unknown one is a bad argument. -/
theorem test_request_codes :
    let post (code : Word) := after (.requestPosted .a) (State.given (up .ride) [(0x0140, 1), (0x0141, code)])
    ((post 3).srr.read 0x0144, (post 3).srr.read 0x0140) = (3, 4) ∧ (post 9).srr.read 0x0144 = 2 ∧
      (post 6).inFlight = [.absReady] := by decide +kernel

/-- R136, R145: START RIDE counts the ride, runs the bulb check for 200 ticks and enters RIDE. -/
theorem test_start_ride :
    let t := after .startRide ((up .idle).setSup { (up .idle).sup with rideNumber := 65535, rideClock := 10000 })
    t.sup.mode = .ride ∧ t.sup.rideNumber = 65535 ∧ t.sup.bulb = some 10200 ∧
      t.inFlight = [.dirtyMark .header, .modeNotice, .fcuModeNotice .entered, .rideStartStep] := by decide +kernel

/-- RIDE with a START RIDE whose parts `rings` and `lamps` have not ended. -/
def starting (rings lamps : Bool) : State :=
  (up .ride).setHandler { Handler.reset with start := some { rings := rings, lamps := lamps } }

/-- R145, R190: the last part of step 4 raises START_RIDE, which completes the request; that of an orphan writes nothing
(R146), and no restart of Port E is taken before it (R193). -/
theorem test_start_ride_completes :
    (after .rideStartStep (starting false true)).inFlight = [.startRide] ∧
      (after .rideStartStep (starting true true)).inFlight = [] ∧
    (let t := after .startRide (starting false false)
     (t.srr.read 0x0100, t.handler.start, t.inFlight) = (3, none, [.latchRequest .e ⟨.reqdone, none⟩])) ∧
    (after .startRide ((starting false false).setHandler
      { (starting false false).handler with orphan := { e := true, a := false } })).srr.read 0x0100 = 0 ∧
    ({ starting true true with inFlight := [.rideStartStep, .requestRestart .e] } : State).mayTake (.requestRestart .e)
      = false := by decide +kernel

/-- R177: a second ABS READY finds the flag set. -/
theorem test_abs_ready :
    (after .absReady (up .ride)).srr.read 0x0145 = 1 ∧ (after .absReady (up .ride)).srr.read 0x000E = 1 ∧
      (after .absReady (after .absReady (up .ride))).srr.read 0x0145 = 0 := by decide +kernel

/-- R178: an overcurrent in START-UP sets the latch and the output off, and requests nothing. -/
theorem test_overcurrent_in_start_up :
    let t := after (.overcurrentDetection .abs) (up .startUp)
    t.lamps.abs.short = true ∧ t.lamps.abs.output = false ∧ t.inFlight = [] := by decide +kernel

/-- Spec 9.7: an overcurrent at the ABS lamp darkens it and requests LAMP, once. -/
theorem test_overcurrent :
    let t := after (.overcurrentDetection .abs) (up .ride)
    t.srr.read 0x000D = 0x000A ∧ t.inFlight = [.latchRequest .e ⟨.lamp, none⟩] ∧
      (after (.overcurrentDetection .abs) t).inFlight = [.latchRequest .e ⟨.lamp, none⟩] := by decide +kernel

/-- R157, R158: a header write completes and empties the set, and SAVED is requested. -/
theorem test_header_write :
    let s := (up .idle).setSup { (up .idle).sup with rideNumber := 45 }
    let t := after .writeStart (after (.dirtyMark .header) s)
    t.srr.read 0x000A = 1 ∧ t.srr.read 0x0009 = 1 ∧
      (after .writeCompletion t).store.header = [(0, 0x4B07), (1, 0x002D), (2, 0x5A26)] ∧
      (after .writeCompletion t).inFlight = [.latchRequest .e ⟨.saved, none⟩] := by decide +kernel

/-- R131, R132: a part reset of a delivered part, and the end of its START-UP. -/
theorem test_reset_and_load :
    let t := after .loadComplete (after .partReset (after .resetHold (up .ride)))
    t.sup.mode = .config ∧ t.srr.read 0x0000 = 0x0740 ∧ t.srr.read 0x0002 = 1 ∧ t.srr.read 0x000C = 6 ∧
      t.stores.getLast? = some (0x0002, 1) := by decide +kernel

/-! ### Checks by which a small state is shown well formed -/

theorem of_none {α : Type} {o : Option α} {P : α → Prop} (h : o = none) : ∀ x, o = some x → P x := by
  intro x hx; rw [h] at hx; cases hx

theorem of_some {α : Type} {o : Option α} {y : α} {P : α → Prop} (h : o = some y) (hy : P y) :
    ∀ x, o = some x → P x := by
  intro x hx; rw [h] at hx; cases hx; exact hy

def captureCheck (c : Capture) : Bool :=
  decide (c.preGot ≤ c.preWanted ∧ c.preWanted ≤ 15 ∧ c.postGot ≤ c.postWanted ∧ c.postWanted ≤ 15 ∧
    (c.state = .opened → c.postGot < c.postWanted))

theorem capturesWf_of_check (s : State) (h : ∀ b : BufNo, (s.pool[b]).all captureCheck = true) : s.CapturesWf := by
  intro b c hc
  have hb := h b
  rw [hc] at hb
  simp only [Option.all_some, captureCheck, decide_eq_true_eq] at hb
  exact ⟨hb.1, hb.2.1, hb.2.2.1, hb.2.2.2.1, hb.2.2.2.2⟩

def recordCheck (r : Record) : Bool :=
  decide (r.state = r.computedState ∧ 1 ≤ r.occurrence ∧ r.occurrence ≤ 255 ∧ r.age ≤ 250 ∧ r.clean ≤ 7)

theorem eventMemoryWf_of_check (s : State) (h : ∀ i : SlotNo, (s.slots[i]).all recordCheck = true)
    (single : ∀ i j : SlotNo, s.slots[i].map (·.fault) = s.slots[j].map (·.fault) → s.slots[i].isSome = true → i = j)
    (index : s.index = indexOf s.slots) : s.EventMemoryWf := by
  refine ⟨fun i r hr => ?_, fun i j r q hr hq hf => single i j (by simp [hr, hq, hf]) (by simp [hr]), index⟩
  have hi := h i
  rw [hr] at hi
  simp only [Option.all_some, recordCheck, decide_eq_true_eq] at hi
  exact ⟨hi.1, ⟨hi.2.1, hi.2.2.1⟩, hi.2.2.2.1, hi.2.2.2.2⟩

def queueCheck (q : Queue) (closing : Bool) : Bool :=
  decide (q.capacity ∈ [16, 32, 64, 128, 256, 512] ∧ q.occupancy = (q.takenTop - q.bottom).toNat ∧
    q.occupancy ≤ q.capacity ∧ (closing = true → q.drain ≤ q.capacity))

def trackerCheck (t : Tracker) : Bool := decide (t.capacity ∈ [16, 32, 64] ∧ t.held ≤ t.capacity)

theorem queuesWf_of_check (s : State)
    (h : (queueCheck s.queues.e (decide (s.sup.mode = .closing)) && queueCheck s.queues.a (decide (s.sup.mode = .closing)) &&
      trackerCheck s.rings.e && trackerCheck s.rings.a) = true) : s.QueuesWf := by
  simp only [queueCheck, trackerCheck, Bool.and_eq_true, decide_eq_true_eq] at h
  obtain ⟨⟨⟨he, ha⟩, hre⟩, hra⟩ := h
  intro p
  cases p
  · exact ⟨⟨he.1, he.2.1, he.2.2.1, he.2.2.2⟩, hre.1, hre.2⟩
  · exact ⟨⟨ha.1, ha.2.1, ha.2.2.1, ha.2.2.2⟩, hra.1, hra.2⟩

theorem up_captures (m : Mode) : (up m).CapturesWf := capturesWf_of_check _ (by cases m <;> decide +kernel)
theorem up_queues (m : Mode) : (up m).QueuesWf := queuesWf_of_check _ (by cases m <;> decide +kernel)
theorem up_events (m : Mode) : (up m).EventMemoryWf :=
  eventMemoryWf_of_check _ (by cases m <;> decide +kernel) (by cases m <;> decide +kernel) (by cases m <;> decide +kernel)

/-! ### Witnesses: for each statement, a state and operands that meet its hypotheses, clause by clause -/

/-- The part in a mode at a time of the ride clock. -/
def clocked (m : Mode) (now : Time) : State := (up m).setSup { (up m).sup with rideClock := now }

/-- The part in a mode with the transaction of Port E standing somewhere. -/
def linked (m : Mode) (l : Link) : State := (up m).setPort .e { PortIf.reset with link := l }

/-- The part in RIDE with a request block word of Port E. -/
def posted (v : Word) : State := State.given (up .ride) [(0x0100, v)]

theorem up_running (m : Mode) (h : m ≠ .startUp) : (up m).Running := ⟨rfl, h⟩

def goesOn (o : Host.Outcome State Fault Refusal) : Bool :=
  match o with
  | .next _ => true
  | _ => false

theorem next_of_goesOn {o : Host.Outcome State Fault Refusal} (h : goesOn o = true) : ∃ t, o = .next t := by
  cases o with
  | next t => exact ⟨t, rfl⟩
  | _ => cases h

theorem witness_StepRunsTheFrontCommand :
    ({ up .ride with pending := [.flashTick, .modeNotice] } : State).pending = .flashTick :: [.modeNotice] ∧
      (up .ride).pending = [] := ⟨rfl, rfl⟩

/-- A part at the end of its load, with a capture and an image write in flight, about to run a command. -/
def stepping : State :=
  let s := after .writeStart (after (.dirtyMark .header) (after .loadComplete State.reset))
  { after (.trigger 18 { number := 1, time := 900 } .a 4 6 12) s with pending := [.rideClockTick] }

theorem zeros_of_check {m : Mem} (h : m.all (fun c => decide (¬ readsZero c.1)) = true) :
    ∀ a, readsZero a → m.read a = 0 := by
  intro a ha
  unfold Mem.read
  split
  · rename_i c hc
    have hm := List.all_eq_true.1 h c (List.mem_of_find?_eq_some hc)
    have ha' := List.find?_some hc
    simp only [beq_iff_eq] at ha'
    rw [ha'] at hm
    exact absurd ha (of_decide_eq_true hm)
  · rfl

theorem witness_StepKeepsMemoriesCanonical : stepping.MemoryWf ∧ ∃ t, step stepping = .next t := by
  refine ⟨⟨⟨by decide +kernel, by decide +kernel⟩, zeros_of_check (by decide +kernel),
    ⟨by decide +kernel, by decide +kernel⟩, fun i => ⟨by revert i; decide +kernel, by revert i; decide +kernel⟩, ?_,
    capturesWf_of_check _ (by decide +kernel)⟩, next_of_goesOn (by decide +kernel)⟩
  exact of_some (y := { image := .header, content := headerImage 0, rewrite := false }) (by decide +kernel)
    ⟨by decide +kernel, by decide +kernel⟩

/-- CONFIG with the fault definition table locked, about to leave it. -/
def locked : State :=
  { (up .config).setHandler
      { Handler.reset with
        fdtLocked := true,
        take := some { valid := 0, invalid := 0, lowestInvalid := none, found := Vector.replicate 128 none,
                       next := none } } with
    pending := [.takeDefinitionsBuildDone] }

/-- RIDE with the ring of Port A LIVE and its stall timer somewhere, about to meet a tick. -/
def timing (n : Nat) : State :=
  { (up .ride).setRing .a { Tracker.reset with state := .live, timer := some n } with pending := [.rideClockTick] }

theorem timing_timers (n : Nat) (h : n ≤ 50) : (timing n).TimersWf := by
  intro p m hm
  cases p
  · exact absurd hm (by intro h; cases h)
  · exact ⟨rfl, by cases hm; exact h⟩

theorem witness_StepKeepsQueuesDirtySetAndLock :
    (stepping.QueuesWf ∧ stepping.DirtyWf ∧ ∃ t, step stepping = .next t) ∧
    (locked.LockWf ∧ locked.handler.fdtLocked = true ∧ ∃ t, step locked = .next t) ∧
    (timing 49).TimersWf ∧ (timing 50).TimersWf ∧ ∃ t, step (timing 49) = .next t ∧ (t.rings.get .a).timer = some 50 := by
  refine ⟨⟨queuesWf_of_check _ (by decide +kernel), ⟨by decide +kernel, ?_⟩, next_of_goesOn (by decide +kernel)⟩,
    ⟨fun _ => rfl, rfl, next_of_goesOn (by decide +kernel)⟩, timing_timers 49 (by decide), timing_timers 50 (by decide),
    after .rideClockTick { timing 49 with pending := [] }, rfl, by decide +kernel⟩
  exact of_some (y := { image := .header, content := headerImage 0, rewrite := false }) (by decide +kernel)
    (by decide +kernel)

def placed (d : Definition) (a : Int) : Phase → Bool
  | .untested => decide (a = 0)
  | .passing => decide (d.healAt < a ∧ a < 0)
  | .passed => decide (a = d.healAt)
  | .suspect => decide (d.healAt < a ∧ a < d.confirmAt)
  | .confirmed => decide (a = d.confirmAt)
  | .recovering => decide (d.healAt < a ∧ a < d.confirmAt)

theorem admits_of_placed {d : Definition} {a : Int} {p : Phase} (h : placed d a p = true) : p.admits d a := by
  cases p <;> simpa [placed, Phase.admits] using h

def definitionCheck (d : Definition) : Bool :=
  decide ((1 ≤ d.gF ∧ d.gF ≤ 32767) ∧ (1 ≤ d.gP ∧ d.gP ≤ 32767) ∧ (1 ≤ d.confirm ∧ d.confirm ≤ 2000000) ∧
    (1 ≤ d.healMag ∧ d.healMag ≤ 2000000) ∧ (1 ≤ d.lampHeal ∧ d.lampHeal ≤ 7) ∧ d.aging ≤ 250)

theorem definitionWf_of_check {d : Definition} (h : definitionCheck d = true) : d.Wf := by
  obtain ⟨h1, h2, h3, h4, h5, h6⟩ := of_decide_eq_true h
  exact ⟨h1, h2, h3, h4, h5, h6⟩

def entryCheck (e : FaultEntry) : Bool :=
  (match e.defn with
    | none => decide (e = { FaultEntry.reset with episode := e.episode })
    | some d => definitionCheck d && placed d e.acc e.phase) &&
    decide (e.trigger.isSome = e.phase.episodeOpen) && decide (e.phase ≠ .suspect → e.capture = none)

theorem entryWf_of_check (e : FaultEntry) (h : entryCheck e = true) : e.Wf := by
  simp only [entryCheck, Bool.and_eq_true, decide_eq_true_eq] at h
  obtain ⟨⟨hd, ht⟩, hc⟩ := h
  cases hk : e.defn with
  | none =>
    rw [hk] at hd
    exact ⟨fun _ => of_decide_eq_true hd, by simp [hk], ht, hc⟩
  | some d =>
    rw [hk] at hd
    simp only [Bool.and_eq_true] at hd
    exact ⟨by simp [hk], of_some hk ⟨definitionWf_of_check hd.1, admits_of_placed hd.2⟩, ht, hc⟩

/-- Fault 18 as each of the five reports of spec 4.8 leaves it is well formed: SUSPECT, CONFIRMED and PASSED are among
them, with the accumulator at C and at H. -/
theorem reports18_wf : ∀ e ∈ reports18, e.Wf := fun e he => entryWf_of_check e (by revert e; decide +kernel)

/-- Fault 18 is CONFIRMED, and a record stands in slot 0. -/
def confirmed18 : State :=
  { (State.records ((up .ride).setFault 18 (reports18.getD 2 FaultEntry.reset)) 0 record18) with
    pending := [.heal 18] }

theorem confirmed18_faults : confirmed18.FaultsWf :=
  ⟨fun f => entryWf_of_check _ (by revert f; decide +kernel), of_none rfl⟩

theorem confirmed18_events : confirmed18.EventMemoryWf :=
  eventMemoryWf_of_check _ (by decide +kernel) (by decide +kernel) (by decide +kernel)

theorem witness_StepKeepsFaultTable : confirmed18.FaultsWf ∧ ∃ t, step confirmed18 = .next t :=
  ⟨confirmed18_faults, next_of_goesOn (by decide +kernel)⟩

theorem witness_StepKeepsEventMemory :
    confirmed18.FaultsWf ∧ confirmed18.EventMemoryWf ∧ ∃ t, step confirmed18 = .next t :=
  ⟨confirmed18_faults, confirmed18_events, next_of_goesOn (by decide +kernel)⟩

theorem witness_StepKeepsViewsAndMirrors :
    stepping.CapturesWf ∧ stepping.ViewsFaithful ∧ stepping.ControlAreaWf ∧ ∃ t, step stepping = .next t := by
  have shows : stepping.ControlArea := by
    constructor
    all_goals first | decide +kernel | (intro which; cases which <;> decide +kernel)
  have views : stepping.ViewsFaithful := by constructor <;> decide +kernel
  exact ⟨capturesWf_of_check _ (by decide +kernel), views,
    ⟨fun _ _ => shows, fun h => absurd h (by decide +kernel)⟩, next_of_goesOn (by decide +kernel)⟩

theorem witness_ModeNumberAndClockChangeByTheirEvents :
    (∃ t, exec .startRide (up .idle) = .next t) ∧ (∃ t, exec .partReset (up .closing) = .next t) ∧
      Instr.startRide ≠ .partReset ∧ Instr.startRide ≠ .rideClockTick ∧
      (Instr.endRide ≠ .partReset ∧ Instr.endRide ≠ .startRide ∧ ∃ t, exec .endRide (up .ride) = .next t) ∧
      ((up .startUp).held = false ∧ (up .startUp).sup.mode = .startUp) :=
  ⟨next_of_goesOn (by decide +kernel), next_of_goesOn (by decide +kernel), by decide, by decide,
    ⟨by decide, by decide, next_of_goesOn (by decide +kernel)⟩, rfl, rfl⟩

/-- The part held in reset with a READ burst on Port E and SUPPLY-LOW low. -/
def heldReading : State := { linked .ride (.reading 5) with held := true }

theorem witness_HoldAndStartUpKeepEventsOut :
    (heldReading.held = true ∧
      (∀ c ∈ [Instr.read .e (.opens 0xFFFF) ⟨2, false⟩, .read .e .continues ⟨2, false⟩, .write .a (.cut 1) ⟨[], false⟩,
        .swap .e (.cut 0), .status .a true 0, .status .a false 3, .badCommand .e 0x55 0, .restart .e 0, .restart .a 7,
        .chipSelectRise .e, .loadComplete, .supplyLowChange true], c ≠ .partReset) ∧
      Burst.opens 0xFFFF ≠ .continues ∧ Burst.cut 1 ≠ .continues ∧
      (∀ level, Instr.loadComplete ≠ .supplyLowChange level) ∧
      (∀ k, Instr.read .e .continues ⟨2, false⟩ ≠ .restart .e k) ∧
      Instr.read .e .continues ⟨2, false⟩ ≠ .chipSelectRise .e) ∧
    ((up .startUp).held = false ∧ (up .startUp).sup.mode = .startUp ∧
      (Instr.topTaken .e 5).block ∈ [Block.intake, .qualifier, .capture, .manager, .handler, .store] ∧
      Instr.writeStart ∈ [Instr.recordTake .e, .recordTake .a, .writeStart, .writeCompletion] ∧
      Instr.takeDefinitions.block = .supervisor ∧ Instr.takeDefinitions ≠ .loadComplete ∧
      Instr.takeDefinitions ≠ .bulbCheckExpiry) :=
  ⟨⟨rfl, by decide, by decide, by decide, (fun _ h => by cases h), (fun _ h => by cases h), by decide⟩, by decide⟩

/-- R130, R194: a READ that begins in the hold shifts nothing out, and its port stands abandoned; the other port and a burst
that would go on stand as they were. -/
theorem test_hold_takes_no_bit :
    let t := after (.read .a (.opens 0x0002) ⟨1, false⟩) heldReading
    t.ports.a = { PortIf.reset with link := .abandoned } ∧ t.ports.e = heldReading.ports.e ∧
      (after (.read .e .continues ⟨1, false⟩) heldReading).ports = heldReading.ports := by decide

theorem witness_TransactionsSpellTheirCommands :
    ((Instr.swap .a (.whole 0xFFFF 0 1 3)).ofPort = some .a ∧ (Instr.swap .a (.whole 0xFFFF 0 1 3)).wellFormed = true ∧
      encodeTransaction (.swap .a (.whole 0xFFFF 0 1 3)) = some ([0xA4, 0xFF, 0xFF, 0, 0, 0, 1, 0, 0, 0], 0)) ∧
    ((Instr.restart .e 7).ofPort = some .e ∧ encodeTransaction (.restart .e 7) = some ([0xAF], 7)) ∧
    ((Instr.read .e (.cut 1) ⟨0, false⟩).wellFormed = true ∧
      encodeTransaction (.read .e (.cut 1) ⟨0, false⟩) = some ([0xA1, 0], 0)) ∧
    ((Instr.write .e (.opens 0x0180) ⟨[5], true⟩).wellFormed = true ∧
      encodeTransaction (.write .e (.opens 0x0180) ⟨[5], true⟩) = some ([0xA2, 0x01, 0x80, 0, 5, 0], 0)) ∧
    Instr.chipSelectRise .e ∈ decodeTransaction .e [0xA8] 0 := by decide

theorem witness_PublishedWordsHaveTheirLayout :
    ((-2000000 : Int) ≤ ({ FaultEntry.reset with acc := -2000000 } : FaultEntry).acc ∧
      ({ FaultEntry.reset with acc := 2000000 } : FaultEntry).acc ≤ 2000000) ∧
    ({ record18 with occurrence := 255, age := 250, clean := 7 } : Record).Wf ∧ record18.Wf ∧
    ({ capture18 with preWanted := 15, preGot := 15, postWanted := 15, postGot := 14 } : Capture).Wf ∧
    ({ capture18 with postGot := 1, state := .complete } : Capture).Wf ∧
    ((List.finRange 16).length ≤ 16 ∧ ([] : List SlotNo).length ≤ 16) := by
  refine ⟨by decide, ?_, ?_, ?_, ?_, by decide⟩ <;> constructor <;> decide

/-- The words that decide an entry of the fault definition table, at the ends of their ranges, and images that are good,
erased and bad. -/
theorem witness_FormatsAreReadAtTheirBits :
    (0x7945 / 512 % 16 = 12 ∧ 0x7945 / 128 % 4 = 2 ∧ 0x7945 / 8192 = 3 ∧ 0x0145 / 512 % 16 = 0 ∧ 0x2C00 / 128 % 4 = 0 ∧
      0x0050 / 16 % 16 = 5) ∧
    (([0, 1, 32767, 32768] : List Nat).map fun g => decide (g = 0 ∨ 32767 < g)) = [true, false, false, true] ∧
    (([0, 1, 2000000, 2000001] : List Nat).map fun c => decide (c = 0 ∨ 2000000 < c)) = [true, false, false, true] ∧
    (([0xFA64, 0xFB64] : List Nat).map fun w => decide (250 < w / 256)) = [false, true] ∧
    Mem.Canonical (headerImage 45) 3 ∧ (headerImage 45).read 0 + (headerImage 45).read 1 + (headerImage 45).read 2 = 0xA55A ∧
    Mem.Canonical erasedImage 280 ∧ Mem.Canonical [] 280 ∧
    (let m := State.recordImage (up .idle) record18
     Mem.Canonical m 280 ∧ (m.readRange 0 280).foldl (· + ·) 0 = 0xA55A ∧ (m.read 0).toNat % 4 = 1 ∧
       (m.read 1).toNat % 256 < 128 ∧ (m.read 1).toNat / 256 % 16 ≠ 0 ∧ (m.read 2).toNat % 256 ≠ 0 ∧
       (m.read 2).toNat / 256 ≤ 250 ∧ (m.read 0).toNat / 16 % 8 ≤ 4) := by
  refine ⟨by decide, by decide, by decide, by decide, ?_, by decide +kernel, ?_, ?_, ?_, by decide +kernel⟩ <;>
    exact ⟨by decide +kernel, by decide +kernel⟩

theorem witness_ReadShiftsOutWords :
    (up .ride).held = false ∧ ((up .ride).ports.get .e).link ≠ .abandoned ∧ (up .startUp).held = false ∧
      ((up .startUp).ports.get .a).link ≠ .abandoned ∧ (linked .ride (.reading 0x3FFF)).held = false ∧
      ((linked .ride (.reading 0x3FFF)).ports.get .e).link = .reading 0x3FFF := by decide

theorem witness_StoreRightsFollowTheTable :
    (up .ride).mayStore .e 0x0100 true = true ∧ (up .ride).mayStore .e 0x0100 false = false ∧
      (up .ride).mayStore .e 0x0101 false = true ∧ (posted 2).mayStore .e 0x0101 false = false ∧
      (up .config).mayStore .e 0x07FF false = true ∧ (up .config).mayStore .a 0x07FF false = false ∧
      (up .idle).mayStore .e 0x0400 false = false ∧ (up .ride).mayStore .a 0x17FF false = true ∧
      (up .ride).mayStore .a 0x1BFF false = true ∧ (up .ride).mayStore .a 0x1C00 false = false := by decide +kernel

theorem witness_WriteStoresWhatItMay :
    ((up .startUp).held = false ∧ ((up .startUp).ports.get .e).link ≠ .abandoned ∧ (up .startUp).sup.mode = .startUp) ∧
    ((up .ride).held = false ∧ ((up .ride).ports.get .e).link ≠ .abandoned ∧ (up .ride).sup.mode ≠ .startUp) ∧
    (up .ride).mayStore .e ((0xC002 : Word).toNat % 16384) false = false ∧
    ([(0x010C : Word), 0x0108, 0x0109, 0x0180, 0x0183, 0x0184, 0x0186, 0xC800].all fun w =>
      (up .ride).mayStore .e (w.toNat % 16384) false) = true ∧
    [0x010C, 0x0108, 0x0109, 0x0180, 0x0183, 0x0184, 0x0186] =
      [aAck .e, aEnable .e, aPolarity .e, aTop .e, aEmptyLevel .e, aFullLevel .e, aHead .e] ∧
    (0xC800 : Word).toNat % 16384 ∉
      [aAck .e, aEnable .e, aPolarity .e, aTop .e, aEmptyLevel .e, aFullLevel .e, aHead .e] ∧
    ((linked .ride (.writing 0x3FFF)).held = false ∧ ((linked .ride (.writing 0x3FFF)).ports.get .e).link ≠ .abandoned ∧
      ((linked .ride (.writing 0x3FFF)).ports.get .e).link = .writing 0x3FFF ∧ 0x3FFF < 16384) := by decide +kernel

theorem witness_SwapComparesAndStores :
    ((up .startUp).held = false ∧ ((up .startUp).ports.get .e).link ≠ .abandoned ∧ (up .startUp).sup.mode = .startUp) ∧
    ((up .ride).held = false ∧ ((up .ride).ports.get .e).link ≠ .abandoned ∧ (up .ride).sup.mode ≠ .startUp) ∧
    (up .ride).mayStore .e 0x0002 true = false ∧
    (∀ a ∈ [aRequest .e, aAck .e, aEnable .e], (up .ride).mayStore .e a true = true) ∧
    ((up .ride).srr.read (aRequest .e) ≠ 1 ∧ (up .ride).srr.read (aRequest .e) = 0 ∧
      (up .ride).srr.read (aAck .e) = 0 ∧ (up .ride).srr.read (aEnable .e) = 0) ∧
    ((posted 3).srr.read (aRequest .e) = 3 ∧ (posted 4).srr.read (aRequest .e) = 4 ∧
      (posted 2).srr.read (aRequest .e) = 2 ∧
      ([(2 : Word), 3, 4].all fun v => (posted v).mayStore .e (aRequest .e) true) = true) ∧
    aEnable .e ≠ aRequest .e ∧ aEnable .e ≠ aAck .e := by decide +kernel

theorem witness_StatusFollowsAndRestartRaises :
    (up .ride).held = false ∧ ((up .ride).ports.get .e).link ≠ .abandoned ∧ (up .startUp).held = false ∧
      ((up .startUp).ports.get .e).link ≠ .abandoned ∧ (linked .ride .statusOut).held = false ∧
      ((linked .ride .statusOut).ports.get .e).link ≠ .abandoned ∧
      ((linked .ride .statusOut).ports.get .e).link = .statusOut := by decide

theorem witness_BadCommandLatchesAndRiseEnds :
    (up .ride).held = false ∧ ((up .ride).ports.get .e).link ≠ .abandoned ∧ (up .startUp).held = false ∧
      ((up .startUp).ports.get .e).link ≠ .abandoned ∧ (linked .ride .abandoned).held = false ∧
      ((linked .ride .abandoned).ports.get .e).link = .abandoned ∧ (Instr.read .e (.cut 0) ⟨0, false⟩).ofPort = some .e ∧
      Instr.read .e (.cut 0) ⟨0, false⟩ ≠ .chipSelectRise .e ∧ ((linked .ride .statusOut).ports.get .e).link = .statusOut ∧
      ((linked .ride .spent).ports.get .e).link ≠ .statusOut := by decide

theorem witness_PortsReachTheirOwnWordsAlone :
    (Instr.write .e (.opens 0x0108) ⟨[1], false⟩).ofPort = some .e ∧
    (∀ s ∈ [up .ride, up .startUp, posted 1], ∃ t, exec (.write .e (.opens 0x0108) ⟨[1], false⟩) s = .next t) ∧
    ¬ portWritable .e 0x0148 ∧ ¬ portWritable .e 0x1C00 ∧ (up .ride).editable = false ∧ (posted 1).inHand .e = true ∧
    (∀ f, Instr.write .e (.opens 0x0108) ⟨[1], false⟩ ≠ .swap .e f) ∧ (up .startUp).sup.mode = .startUp := by
  refine ⟨rfl, ?_, by unfold portWritable; decide, by unfold portWritable; decide, rfl, by decide +kernel,
    (fun f h => by cases h), rfl⟩
  intro s hs
  simp only [List.mem_cons, List.not_mem_nil, or_false] at hs
  rcases hs with rfl | rfl | rfl <;> exact next_of_goesOn (by decide +kernel)

/-- A report record of fault 18. -/
def report18 (fault : Nat) (o : Option ReportOutcome) : Report :=
  { fault := fault, outcome := o, deviation := 16384, count := 3, stamp := 0 }

theorem witness_ValidationFollowsTheTable :
    (report18 18 none).outcome = none ∧ ((report18 128 (some .fail)).outcome ≠ none ∧
      128 ≤ (report18 128 (some .fail)).fault) ∧
    (∃ h : (report18 127 (some .pass)).fault < 128, ((up .ride).faults[(report18 127 (some .pass)).fault]).defn = none) ∧
    ((State.knows (up .ride) 18 fault18).faults[18].defn = some fault18 ∧ fault18.source ≠ .e ∧ fault18.source = .a) ∧
    ((State.knows (up .idle) 18 fault18).faults[18].defn = some fault18 ∧ (up .idle).sup.mode ≠ .ride ∧
      ¬ ((up .idle).sup.mode = .closing ∧ 0 < ((up .idle).queues.get .a).drain)) ∧
    ((up .closing).sup.mode = .closing ∧
      0 < (((up .closing).setQueue .a { Queue.reset with drain := 1 }).queues.get .a).drain) ∧
    (report18 18 (some .untestable)).fault = (18 : FaultNo).val := by
  refine ⟨rfl, by decide, ⟨by decide, by decide +kernel⟩, by decide +kernel, by decide +kernel, by decide, by decide⟩

/-- Port A's queue between two indices, of capacity 16. -/
def queued (m : Mode) (bottom top : Word) : State :=
  (up m).setQueue .a { Queue.reset with takenTop := top, bottom := bottom, occupancy := (top - bottom).toNat }

theorem witness_TopTakenCountsOrRepairs :
    (queued .ride 65533 9).Running ∧ (queued .closing 65533 9).Running ∧
    (let q := (queued .ride 65533 9).queues.get .a
     ((9 : Word) - q.bottom).toNat = q.occupancy ∧ q.occupancy ≤ q.capacity ∧
     ((13 : Word) - q.bottom).toNat ≠ q.occupancy ∧ ((13 : Word) - q.bottom).toNat = q.capacity ∧
     q.capacity < ((14 : Word) - q.bottom).toNat) :=
  ⟨⟨rfl, by decide⟩, ⟨rfl, by decide⟩, by decide⟩

/-- One record of fault 18 waits in queue A. -/
def waiting (o : Word) (latched : Word) : State :=
  State.given (State.knows (queued .ride 0 1) 18 fault18)
    [(0x014B, latched), (0x1000, 18 + o), (0x1001, 16384), (0x1002, 3), (0x1003, 0)]

theorem waiting_running (o l : Word) : (waiting o l).Running := ⟨rfl, fun h => by cases h⟩

theorem witness_StampsGiveFullTimes :
    ([(0x0011 : Word), 0x010F].map fun w => (w - (196624 : Time).setWidth 16).toNat) = [1, 255] ∧
    ([(0x0010 : Word), 0x0110].map fun w =>
      ((w - (196624 : Time).setWidth 16).toNat, ((196624 : Time).setWidth 16 - w).toNat)) = [(0, 0), (256, 65280)] ∧
    65280 ≤ (196624 : Time).toNat ∧
    (((0x0200 : Word) - (256 : Time).setWidth 16).toNat = 256 ∧
      (256 : Time).toNat < ((256 : Time).setWidth 16 - (0x0200 : Word)).toNat) ∧
    ((waiting 0x0100 0).held = false ∧ (waiting 0x0100 0).sup.mode ≠ .startUp ∧
      ((waiting 0x0100 0).queues.get .a).occupancy ≠ 0 ∧
      (waiting 0x0100 0).validate .a (readReport (waiting 0x0100 0).srr (recordAddress .a 16 0)) =
        .good 18 fault18 .fail) := by decide +kernel

theorem witness_RejectedRecordIsConsumed :
    (∀ l : Word, (waiting 0 l).Running) ∧
    (((waiting 0 0).enables.get .a).getLsbD 2 = false ∧
      (((waiting 0 0).setEnables .a 4).enables.get .a).getLsbD 2 = true ∧
      ((waiting 0 0).setEnables .a 4).validate .a (readReport (waiting 0 0).srr (recordAddress .a 16 0)) = .reject 1) ∧ ((up .ride).Running ∧ ((up .ride).queues.get .a).occupancy = 0) ∧
    ([(0 : Word), 4].map fun l =>
      (((waiting 0 l).queues.get .a).occupancy,
        decide ((waiting 0 l).validate .a (readReport (waiting 0 l).srr (recordAddress .a 16 0)) = .reject 1),
        ((waiting 0 l).srr.read (aLatched .a)).getLsbD 2)) = [(1, true, false), (1, true, true)] :=
  ⟨fun l => waiting_running 0 l, by decide +kernel, ⟨⟨rfl, by decide⟩, by decide⟩, by decide +kernel⟩

theorem witness_GoodRecordIsApplied :
    (waiting 0x0100 0).Running ∧ ((waiting 0x0100 0).queues.get .a).occupancy ≠ 0 ∧
      (waiting 0x0100 0).validate .a (readReport (waiting 0x0100 0).srr (recordAddress .a 16 0)) = .good 18 fault18 .fail :=
  ⟨waiting_running _ _, by decide +kernel, by decide +kernel⟩

theorem witness_RestartEmptiesTheQueueAndDrainIsReported : (queued .closing 65533 9).Running ∧
  (queued .ride 65533 9).Running :=
  ⟨⟨rfl, by decide⟩, ⟨rfl, by decide⟩⟩

theorem fault18_wf : fault18.Wf := definitionWf_of_check (by decide)

theorem fault77_wf : fault77.Wf := definitionWf_of_check (by decide)

theorem witness_UpdateMovesByTheRoundedStep :
    fault77.fixed = true ∧ fault18.fixed = false ∧ 2 * (1 * 16383) < 32768 ∧ 32768 ≤ 2 * (1 * 16384) ∧
      (1 ≤ 32767 ∧ 32767 ≤ 32767 ∧ 32768 ≤ 32768) ∧ fault18.Wf ∧ fault77.Wf ∧
      (fault18.healAt ≤ -20000 ∧ (-20000 : Int) ≤ fault18.confirmAt ∧ fault18.healAt ≤ 40000 ∧
        (40000 : Int) ≤ fault18.confirmAt ∧ 1 ≤ 1 ∧ 255 ≤ 255) := by
  refine ⟨by decide, by decide, by decide, by decide, by decide, fault18_wf, fault77_wf, by decide⟩

/-- Fault 77 UNTESTED. -/
def untested77 : FaultEntry := { FaultEntry.reset with defn := some fault77 }

/-- The SUSPECT, CONFIRMED, PASSED and RECOVERING entries of fault 18, and an UNTESTED one. -/
def entries18 : List FaultEntry :=
  { FaultEntry.reset with defn := some fault18 } ::
    (applyReport 18 fault18 .pass 1 16384 450 (reports18.getD 2 FaultEntry.reset)).1 :: reports18

theorem witness_FailMovesTheFault :
    (∀ e ∈ entries18, e.defn = some fault18 ∧ e.Wf) ∧
      entries18.map (·.phase) = [.untested, .recovering, .suspect, .suspect, .confirmed, .confirmed, .passed] ∧
      (reports18.getD 0 FaultEntry.reset).trigger = some 100 :=
  ⟨fun e he => ⟨by revert e; decide +kernel, entryWf_of_check e (by revert e; decide +kernel)⟩, by decide +kernel,
    by decide +kernel⟩

/-- Of the entries above the SUSPECT one at −15360 heals on a pass of 3 steps, and the CONFIRMED one of 255. -/
theorem witness_PassMovesTheFault :
    (∀ e ∈ entries18, e.defn = some fault18 ∧ e.Wf) ∧
      updatedAcc fault18 false 4 24576 (reports18.getD 1 FaultEntry.reset).acc = fault18.healAt ∧
      updatedAcc fault18 false 1 24576 (reports18.getD 1 FaultEntry.reset).acc ≠ fault18.healAt ∧
      updatedAcc fault18 false 255 32767 (reports18.getD 2 FaultEntry.reset).acc = fault18.healAt :=
  ⟨witness_FailMovesTheFault.1, by decide +kernel, by decide +kernel, by decide +kernel⟩

theorem witness_NoticesReachTheEntry : (State.knows (up .ride) 18 fault18).Running ∧ (up .ride).Running :=
  ⟨⟨rfl, by decide⟩, ⟨rfl, by decide⟩⟩

theorem witness_ClearResetsTheEntry :
    confirmed18.Running ∧ (confirmed18.faults[18]).defn = some fault18 ∧ (confirmed18.faults[3]).defn = none :=
  ⟨⟨rfl, by decide +kernel⟩, by decide +kernel, by decide +kernel⟩

theorem all_some {α : Type} {o : Option α} {P : α → Bool} (h : o.all P = true) : ∀ c, o = some c → P c = true := by
  intro c hc; rw [hc] at h; exact h

/-- Port A's ring LIVE in RIDE with its last head somewhere, and an open capture of fault 18 in buffer 4. -/
def ringed (head : Word) (timer : Nat) : State :=
  State.holds ((clocked .ride 1100).setRing .a { Tracker.reset with lastHead := head, state := .live, timer := some timer })
    4 capture18

theorem ringed_queues (head : Word) (n : Nat) : (ringed head n).QueuesWf := by
  intro p
  have h : (up .ride).QueuesWf := up_queues .ride
  cases p
  · exact h .e
  · exact ⟨(h .a).1, (h .a).2.1, (h .a).2.2⟩

theorem ringed_captures : (ringed 65535 49).CapturesWf := capturesWf_of_check _ (by decide +kernel)

theorem ringed_running (head : Word) (n : Nat) : (ringed head n).Running := ⟨rfl, fun h => by cases h⟩

/-- Advances of 0, 1, the capacity 16, 17, 32767, 32768 and 65535. -/
theorem witness_HeadMovesTheTracker :
    (ringed 65535 49).Running ∧ (ringed 65535 49).QueuesWf ∧
      (([65535, 0, 15, 16, 32766, 32767, 65534] : List Word).map fun h =>
        (h - ((ringed 65535 49).rings.get .a).lastHead).toNat) = [0, 1, 16, 17, 32767, 32768, 65535] ∧
      (up .idle).Running ∧ (up .idle).QueuesWf ∧ (ringed 65535 49).CapturesWf :=
  ⟨ringed_running _ _, ringed_queues _ _, by decide +kernel, ⟨rfl, by decide⟩, up_queues _, ringed_captures⟩

/-- Advances of 1 and of the whole capacity. -/
theorem witness_ArrivalFeedsOpenCaptures :
    (ringed 65535 49).Running ∧ (ringed 65535 49).QueuesWf ∧ (ringed 65535 49).CapturesWf ∧
      1 ≤ 1 ∧ 16 ≤ ((ringed 65535 49).rings.get .a).capacity ∧ (ringed 65535 49).pool[4] = some capture18 ∧
      OpenOn .a capture18 :=
  ⟨ringed_running _ _, ringed_queues _ _, ringed_captures, by decide, by decide, by decide +kernel, rfl, rfl⟩

/-- R80: a WRITE that goes on after the head-written event has changed the time of a sample before it and the first channel
after it, so the event reads the sample mixed. -/
theorem test_mixed_sample :
    let s := State.given (ringed 0 49) [(0x1A00, 900), (0x1A01, 5)]
    let t := after (.headWritten .a 1) (after (.write .a (.opens 0x1A00) ⟨[901], false⟩) s)
    t.inFlight = [.qualificationArrival .a 901 5] ∧
      (after (.write .a .continues ⟨[6], false⟩) t).srr.read 0x1A01 = 6 := by decide +kernel

/-- R80, R86, R93: of two samples at and after T a record's capture takes the second, the last it wants. -/
theorem test_two_samples_arrive :
    let s := State.given (State.holds (ringed 0 49) 4 { capture18 with holder := .record 3 })
      [(0x1A00, 900), (0x1A01, 5), (0x1A08, 901), (0x1A09, 6)]
    let t := after (.headWritten .a 2) s
    (t.pool[4].map fun c => (c.postGot, c.state)) = some (1, .complete) ∧ t.srr.read (placeAddress 4 0 + 1) = 6 ∧
      t.inFlight = [.qualificationArrival .a 900 5,
        .frameChangeNotice 3 4 18 { number := 1, time := 900 } .complete true false, .qualificationArrival .a 901 6] := by
  decide +kernel

theorem witness_LostSamplesMarkGap :
    (ringed 65535 49).Running ∧ (ringed 65535 49).QueuesWf ∧ (ringed 65535 49).CapturesWf ∧
      ((ringed 65535 49).rings.get .a).capacity < ((16 : Word) - ((ringed 65535 49).rings.get .a).lastHead).toNat ∧
      (ringed 65535 49).pool[4] = some capture18 ∧ OpenOn .a capture18 ∧
      32767 < ((32767 : Word) - ((ringed 65535 49).rings.get .a).lastHead).toNat :=
  ⟨ringed_running _ _, ringed_queues _ _, ringed_captures, by decide +kernel, by decide +kernel, ⟨rfl, rfl⟩,
    by decide +kernel⟩

theorem witness_ArrivalsMeasureTheRide :
    (up .idle).Running ∧ (up .idle).sup.mode ≠ .ride ∧ (up .ride).Running ∧ (up .ride).sup.mode = .ride ∧
      (up .ride).sup.previousE = none ∧
      ((up .ride).setSup { (up .ride).sup with previousE := some 5 }).sup.previousE = some 5 ∧
      (up .ride).sup.maxSpeed < 1 := ⟨⟨rfl, by decide⟩, by decide, ⟨rfl, by decide⟩, rfl, rfl, rfl, by decide⟩

theorem witness_RingStatesReachTheSupervisor :
    (up .idle).Running ∧ (up .idle).sup.mode ≠ .ride ∧ Port.e ≠ .a ∧ (up .ride).Running ∧ (up .ride).sup.mode = .ride ∧
      (ringed 0 49).Running ∧ ((ringed 0 49).rings.get .a).timer ≠ some 50 ∧
      (ringed 0 50).Running ∧ ((ringed 0 50).rings.get .a).state = .live ∧ ((ringed 0 50).rings.get .a).timer = some 50 :=
  ⟨⟨rfl, by decide⟩, by decide, by decide, ⟨rfl, by decide⟩, rfl, ringed_running _ _, by decide, ringed_running _ _, rfl,
    rfl⟩

theorem witness_RingsFollowRideAndRestart :
    (ringed 0 50).Running ∧ (ringed 0 50).handler.start = none ∧ ((ringed 0 50).rings.get .a).state ≠ .quiet ∧
      ((ringed 0 50).rings.get .e).state ≠ .live ∧ (starting true false).Running ∧
      (starting true false).handler.start ≠ none ∧ (ringed 0 50).pool[(4 : BufNo)] = some capture18 ∧
      OpenOn .a capture18 :=
  ⟨ringed_running _ _, rfl, by decide, by decide, ⟨rfl, fun h => by cases h⟩, (fun h => by cases h), by decide +kernel,
    rfl, rfl⟩

/-- A pool with a capture of fault 77 in buffer 0. -/
def pooled : State := State.holds (clocked .ride 1100) 0 { capture18 with fault := 77 }

/-- For fault 18 the lowest free buffer is 1; fault 77 gets its own stale capture's buffer, 0. -/
theorem witness_TriggerTakesTheLowestFreeBuffer :
    let stale (f : FaultNo) (o : Option Capture) : Bool :=
      (o.map fun c => decide (c.holder = .provisional) && decide (c.fault = f)).getD false
    pooled.Running ∧ pooled.QueuesWf ∧ LowestBuffer pooled (fun o => o = none ∨ stale 18 o = true) 1 ∧
      LowestBuffer pooled (fun o => o = none ∨ stale 77 o = true) 0 :=
  ⟨⟨rfl, by decide⟩, queuesWf_of_check _ (by decide +kernel), ⟨by decide +kernel, by decide +kernel⟩,
    ⟨by decide +kernel, by decide +kernel⟩⟩

/-- A full pool: a capture of priority 12 from time 900 in every buffer, and in buffer 5 one of an earlier time. -/
def fullPool : State :=
  { clocked .ride 1100 with
    pool := (Vector.replicate 24 (some { capture18 with fault := 77 })).set 5
      (some { capture18 with fault := 77, episode := { number := 1, time := 899 } }) }

theorem fullPool_others : ∀ (b' : BufNo) (c : Capture), fullPool.pool[b'] = some c →
    c.holder = .provisional ∧ c.fault = 77 ∧ c.priority = 12 ∧ (b' = 5 ∨ c.episode.time = 900) := by
  intro b' c h
  have hc : ∀ b' : BufNo, (fullPool.pool[b']).all (fun c => decide (c.holder = .provisional ∧ c.fault = 77 ∧
      c.priority = 12 ∧ (b' = 5 ∨ c.episode.time = 900))) = true := by decide +kernel
  exact of_decide_eq_true (all_some (hc b') c h)

/-- A newcomer of priority 12 finds none strictly below it, and one of priority 13 finds the earliest, in buffer 5. -/
theorem witness_TriggerTakesOverOrLoses :
    fullPool.Running ∧ fullPool.QueuesWf ∧
    (∀ b : BufNo, fullPool.pool[b] ≠ none ∧
      ∀ c, fullPool.pool[b] = some c → ¬ (c.holder = .provisional ∧ c.fault = 18)) ∧
    (∀ b : BufNo, ¬ ∃ c, fullPool.pool[b] = some c ∧ c.holder = .provisional ∧ c.priority < 12) ∧
    ∃ v, fullPool.pool[5] = some v ∧ (v.holder = .provisional ∧ v.priority < 13) ∧
      ∀ (b' : BufNo) (v' : Capture), fullPool.pool[b'] = some v' → (v'.holder = .provisional ∧ v'.priority < 13) →
        v.priority < v'.priority ∨ (v.priority = v'.priority ∧
          (v.episode.time < v'.episode.time ∨ (v.episode.time = v'.episode.time ∧ 5 ≤ b'))) := by
  refine ⟨⟨rfl, by decide⟩, queuesWf_of_check _ (by decide +kernel), fun b' =>
    ⟨by revert b'; decide +kernel, fun c h => ?_⟩, ?_, { capture18 with fault := 77, episode := { number := 1, time := 899 } }, by decide +kernel, by decide, ?_⟩
  · exact fun h18 => absurd ((fullPool_others b' c h).2.1.symm.trans h18.2) (by decide)
  · rintro b ⟨c, h, -, hp⟩
    rw [(fullPool_others b c h).2.2.1] at hp
    exact absurd hp (by decide)
  · intro b' v' h _
    obtain ⟨-, -, hp, h5 | ht⟩ := fullPool_others b' v' h
    · subst h5
      have hv : fullPool.pool[(5 : BufNo)] = some { capture18 with fault := 77, episode := { number := 1, time :=
         899 } } := by
        decide +kernel
      rw [hv] at h
      cases h
      exact Or.inr ⟨rfl, Or.inr ⟨rfl, by decide⟩⟩
    · exact Or.inr ⟨hp.symm, Or.inl (by rw [ht]; decide)⟩

def holdsCheck (h : Holder) (f : FaultNo) (ep : EpisodeId) (o : Option Capture) : Bool :=
  o.any fun c => decide (c.holder = h ∧ c.fault = f ∧ c.episode = ep)

theorem holds_iff (h : Holder) (f : FaultNo) (ep : EpisodeId) (o : Option Capture) :
    Holds h f ep o ↔ holdsCheck h f ep o = true := by
  cases o <;> simp [Holds, holdsCheck]

theorem lowest_of_check (s : State) (h : Holder) (f : FaultNo) (ep : EpisodeId) (b : BufNo)
    (hc : holdsCheck h f ep s.pool[b] = true)
    (hl : ∀ b' : BufNo, b' < b → holdsCheck h f ep s.pool[b'] = false) : LowestBuffer s (Holds h f ep) b :=
  ⟨(holds_iff _ _ _ _).2 hc, fun b' hb hh =>
    Bool.false_ne_true ((hl b' hb).symm.trans ((holds_iff _ _ _ _).1 hh))⟩

theorem no_holds_of_check (s : State) (h : Holder) (f : FaultNo) (ep : EpisodeId)
    (hl : ∀ b : BufNo, holdsCheck h f ep s.pool[b] = false) : ∀ b : BufNo, ¬ Holds h f ep s.pool[b] :=
  fun b hh => Bool.false_ne_true ((hl b).symm.trans ((holds_iff _ _ _ _).1 hh))

/-- Capture 18 in buffer 4, held by `h`. -/
def heldBy (h : Holder) : State := State.holds (clocked .ride 1000) 4 { capture18 with holder := h }

theorem heldBy_running (h : Holder) : (heldBy h).Running := ⟨rfl, fun h => by cases h⟩

theorem witness_ConfirmedCaptureIsAttached :
    (∀ h : Holder, (heldBy h).Running) ∧
      LowestBuffer (heldBy .provisional) (Holds .provisional 18 { number := 1, time := 900 }) 4 ∧
      (∀ b : BufNo, ¬ Holds .provisional 18 { number := 2, time := 900 } (heldBy .provisional).pool[b]) ∧
      LowestBuffer (heldBy .awaiting) (Holds .awaiting 18 { number := 1, time := 900 }) 4 ∧
      (∀ b : BufNo, ¬ Holds .awaiting 18 { number := 1, time := 900 } (heldBy .provisional).pool[b]) :=
  ⟨heldBy_running, lowest_of_check _ _ _ _ _ (by decide +kernel) (by decide +kernel),
    no_holds_of_check _ _ _ _ (by decide +kernel),
    lowest_of_check _ _ _ _ _ (by decide +kernel) (by decide +kernel),
    no_holds_of_check _ _ _ _ (by decide +kernel)⟩

theorem witness_NamedCapturesAreFreed :
    (∀ h : Holder, (heldBy h).Running) ∧
      LowestBuffer (heldBy .provisional) (Holds .provisional 18 { number := 1, time := 900 }) 4 ∧
      (∀ b : BufNo, ¬ Holds .provisional 18 { number := 1, time := 901 } (heldBy .provisional).pool[b]) ∧
      LowestBuffer (heldBy .awaiting) (Holds .awaiting 18 { number := 1, time := 900 }) 4 ∧
      (∀ b : BufNo, ¬ Holds .awaiting 18 { number := 1, time := 900 } (heldBy .provisional).pool[b]) ∧
      (∃ c, (heldBy .provisional).pool[(4 : BufNo)] = some c ∧ c.holder = .provisional ∧ c.fault = 18) ∧
      ¬ (∃ c, (heldBy .provisional).pool[(3 : BufNo)] = some c ∧ c.holder = .provisional ∧ c.fault = 18) ∧
      (∃ c, (heldBy (.record 15)).pool[(4 : BufNo)] = some c ∧ c.holder = .record 15) ∧
      ¬ (∃ c, (heldBy (.record 15)).pool[(3 : BufNo)] = some c ∧ c.holder = .record 15) := by
  have h3 : ∀ h : Holder, (heldBy h).pool[(3 : BufNo)] = none := fun h => by
    cases h with
    | record i => revert i; decide +kernel
    | _ => decide +kernel
  exact ⟨heldBy_running, witness_ConfirmedCaptureIsAttached.2.1, no_holds_of_check _ _ _ _ (by decide +kernel),
    witness_ConfirmedCaptureIsAttached.2.2.2.1, witness_ConfirmedCaptureIsAttached.2.2.2.2,
    ⟨capture18, by decide +kernel, rfl, rfl⟩,
      fun ⟨c, h, _⟩ => (by rw [h3] at h; cases h), ⟨{ capture18 with holder := .record 15 }, by decide +kernel, rfl⟩,
    fun ⟨c, h, _⟩ => by rw [h3] at h; cases h⟩

/-- The window of capture 18 ends at 1100: 199 ticks have passed at 1099. -/
theorem witness_DeadlinesAndSweepsOfThePool :
    ((State.holds (clocked .ride 1100) 4 capture18).Running ∧
      (State.holds (clocked .ride 1100) 4 capture18).pool[4] = some capture18 ∧ capture18.state = .opened ∧
      200 ≤ ((clocked .ride 1100).sup.rideClock - capture18.episode.time).toNat ∧
      (State.holds (clocked .ride 1099) 4 capture18).Running ∧
      ¬ (200 ≤ ((clocked .ride 1099).sup.rideClock - capture18.episode.time).toNat)) ∧
    (heldBy .awaiting).Running ∧ (∃ x, (heldBy .awaiting).pool[(4 : BufNo)] = some x ∧ x.fault = 18 ∧
      (x.holder = .provisional ∨ x.holder = .awaiting)) ∧
    ((heldBy (.record 15)).Running ∧ (∃ x, (heldBy (.record 15)).pool[(4 : BufNo)] = some x ∧ x.holder = .record 15)) ∧
    (heldBy .provisional).pool[(4 : BufNo)] = some capture18 ∧ capture18.holder = .provisional :=
  ⟨⟨⟨rfl, by decide⟩, by decide +kernel, rfl, by decide, ⟨rfl, by decide⟩, by decide⟩, heldBy_running _,
    ⟨{ capture18 with holder := .awaiting }, by decide +kernel, rfl, Or.inr rfl⟩, ⟨heldBy_running _,
    ⟨{ capture18 with holder := .record 15 }, by decide +kernel, rfl⟩⟩, by decide +kernel, rfl⟩

/-- R86, R102: at the end of CLOSING an open provisional capture closes SHORT and is freed, its header rewritten for each; an
open one that awaits direction is closed and kept. -/
theorem test_ride_end_rewrites_the_headers :
    ([Holder.provisional, .awaiting].map fun h =>
      let t := after .fcuRideEndEvent (heldBy h)
      (t.srr.read (bufferBase 4 + 7), t.srr.read (bufferBase 4 + 4), t.srr.read (bufferBase 5 + 7))) =
      [(4, 0, 0), (2, 7, 0)] := by decide +kernel

/-- The same record of fault 18 in slots 3 and 15, the last confirm of the second later. -/
theorem witness_IndexListFollowsTheOrder :
    indexOf (((Vector.replicate 16 none).set 3 (some record18)).set 15
      (some { record18 with fault := 77, lastConfirm := 1001 })) = [15, 3] := by decide +kernel

theorem confirmed18_running : confirmed18.Running := ⟨rfl, fun h => by cases h⟩

theorem witness_ConfirmUpdatesTheRecord :
    confirmed18.Running ∧ confirmed18.EventMemoryWf ∧ confirmed18.slots[(0 : SlotNo)] = some record18 ∧
      record18.fault = 18 := ⟨confirmed18_running, confirmed18_events, by decide +kernel, rfl⟩

/-- Every slot holds a record of priority 12; those of the slots below `n` are STORED. -/
def fullMemory (n : Nat) : State :=
  let slots : Vector (Option Record) 16 := Vector.ofFn fun i =>
    some { record18 with
      fault := ⟨i.val + 20, by omega⟩, lampLatch := false, episodeFlag := decide (n ≤ i.val),
      state := if n ≤ i.val then .active else .stored }
  { up .ride with slots := slots, index := indexOf slots }

theorem fullMemory_running (n : Nat) : (fullMemory n).Running := ⟨rfl, fun h => by cases h⟩

/-- The first nine slots hold records, with slot 9 the lowest FREE one, and no record of fault 77 is there. -/
def nineSlots : State :=
  let slots : Vector (Option Record) 16 := Vector.ofFn fun i =>
    if i.val < 9 then some { record18 with fault := ⟨i.val + 20, by omega⟩ } else none
  { up .ride with slots := slots, index := indexOf slots }

theorem others_of_check (s : State) (f : FaultNo)
    (h : ∀ i : SlotNo, (s.slots[i]).all (fun r => decide (r.fault ≠ f)) = true) :
    ∀ (i : SlotNo) (r : Record), s.slots[i] = some r → r.fault ≠ f := fun i r hr => by simpa using all_some (h i) r hr

theorem fullMemory_events : (fullMemory 7).EventMemoryWf ∧ (fullMemory 0).EventMemoryWf ∧ nineSlots.EventMemoryWf :=
  ⟨eventMemoryWf_of_check _ (by decide +kernel) (by decide +kernel) (by decide +kernel),
    eventMemoryWf_of_check _ (by decide +kernel) (by decide +kernel) (by decide +kernel),
    eventMemoryWf_of_check _ (by decide +kernel) (by decide +kernel) (by decide +kernel)⟩

/-- A confirm of fault 77: a FREE slot; of seven STORED records at priority 12 the last in the list, that of slot 6; of
sixteen ACTIVE ones at priority 13 that of slot 15, and at priority 12 none. -/
theorem witness_ConfirmStoresOrDisplaces :
    (nineSlots.Running ∧ nineSlots.EventMemoryWf ∧
      (∀ (i : SlotNo) (r : Record), nineSlots.slots[i] = some r → r.fault ≠ 77) ∧
      nineSlots.slots[(9 : SlotNo)] = none ∧ ∀ j : SlotNo, j < 9 → nineSlots.slots[j] ≠ none) ∧
    ((fullMemory 7).Running ∧ (fullMemory 7).EventMemoryWf ∧
      (∀ (i : SlotNo) (r : Record), (fullMemory 7).slots[i] = some r → r.fault ≠ 77) ∧
      (∀ i : SlotNo, (fullMemory 7).slots[i] ≠ none) ∧
      (fullMemory 7).index = [0, 1, 2, 3, 4, 5] ++ 6 :: [7, 8, 9, 10, 11, 12, 13, 14, 15] ∧
      (∀ r, (fullMemory 7).slots[(6 : SlotNo)] = some r → r.state = .stored ∧ r.priority ≤ 12) ∧
      ∀ j ∈ ([7, 8, 9, 10, 11, 12, 13, 14, 15] : List SlotNo), ∀ r, (fullMemory 7).slots[j] = some r →
        ¬ (r.state = .stored ∧ r.priority ≤ 12)) ∧
    ((fullMemory 0).Running ∧ (fullMemory 0).EventMemoryWf ∧
      (∀ (i : SlotNo) (r : Record), (fullMemory 0).slots[i] = some r → r.fault ≠ 77) ∧
      (∀ i : SlotNo, (fullMemory 0).slots[i] ≠ none) ∧
      (∀ (j : SlotNo) (r : Record), (fullMemory 0).slots[j] = some r → ¬ (r.state = .stored ∧ r.priority ≤ 13)) ∧
      (fullMemory 0).index = [0, 1, 2, 3, 4, 5, 6, 7, 8, 9, 10, 11, 12, 13, 14] ++ 15 :: [] ∧
      (∀ r, (fullMemory 0).slots[(15 : SlotNo)] = some r → r.state = .active ∧ r.priority < 13) ∧
      ∀ (j : SlotNo) (r : Record), (fullMemory 0).slots[j] = some r → ¬ (r.state = .active ∧ r.priority < 12)) := by
  have h7 : ∀ j : SlotNo, ((fullMemory 7).slots[j]).all (fun r => decide (r.priority = 12 ∧
      (r.state = .stored ↔ j.val < 7))) = true := by decide +kernel
  have h0 : ∀ j : SlotNo, ((fullMemory 0).slots[j]).all (fun r => decide (r.priority = 12 ∧
      r.state = .active)) = true := by decide +kernel
  refine ⟨⟨⟨rfl, fun h => by cases h⟩, fullMemory_events.2.2, others_of_check _ _ (by decide +kernel), by decide +kernel,
    by decide +kernel⟩, ⟨fullMemory_running _, fullMemory_events.1, others_of_check _ _ (by decide +kernel),
    by decide +kernel, by decide +kernel, fun r hr => ?_, fun j hj r hr => ?_⟩, fullMemory_running _,
    fullMemory_events.2.1, others_of_check _ _ (by decide +kernel), by decide +kernel, fun j r hr => ?_,
    by decide +kernel, fun r hr => ?_, fun j r hr => ?_⟩
  · have := all_some (h7 6) r hr
    simp only [decide_eq_true_eq] at this
    exact ⟨this.2.2 (by decide), by rw [this.1]; decide⟩
  · have := all_some (h7 j) r hr
    simp only [decide_eq_true_eq] at this
    have h7 : ∀ j ∈ ([7, 8, 9, 10, 11, 12, 13, 14, 15] : List SlotNo), ¬ j.val < 7 := by decide
    exact fun h => h7 j hj (this.2.1 h.1)
  · have := all_some (h0 j) r hr
    simp only [decide_eq_true_eq] at this
    rw [this.2]
    exact fun h => by cases h.1
  · have := all_some (h0 15) r hr
    simp only [decide_eq_true_eq] at this
    exact ⟨this.2, by rw [this.1]; decide⟩
  · have := all_some (h0 j) r hr
    simp only [decide_eq_true_eq] at this
    rw [this.1]
    exact fun h => absurd h.2 (by decide)

/-- R113, section 6.2: a displacement whose new record stands at its victim's place rewrites the list and requests STORE. -/
theorem test_displacement_at_the_same_place :
    let s := fullMemory 16
    let t := after (.confirmEvent 77 { number := 1, time := 900 } 950 12 .none .steady true) s
    s.index.getLast? = some 15 ∧ (t.slots[15].map fun r => r.fault) = some 77 ∧ t.index = s.index ∧
      t.srr.read (indexView + 1) = 2 ∧ .latchRequest .e ⟨.store, some 77⟩ ∈ t.inFlight ∧
      .latchRequest .a ⟨.store, some 77⟩ ∈ t.inFlight := by decide +kernel

/-- R14, R18, R116: a cleared slot's view reads 0 in its fields, and its change counter counts on (log entry 30). -/
theorem test_freed_slot_keeps_its_counter :
    let s := State.given (State.records (up .idle) 2 record18) [(recordView 2, 5), (recordView 2 + 10, 2)]
    let t := after (.clearEvent 18) s
    t.slots[2] = none ∧ t.srr.readRange (recordView 2) 10 = List.replicate 10 0 ∧ t.srr.read (recordView 2 + 10) = 4 := by
  decide +kernel

/-- A record whose answer is awaited, in slot 2. -/
def awaiting18 : State :=
  State.records (up .ride) 2 { record18 with awaited := some { number := 1, time := 900 } }

theorem witness_HealsAndFrameNotices :
    awaiting18.Running ∧ awaiting18.EventMemoryWf ∧
      (awaiting18.slots[(2 : SlotNo)]).map (fun r => (r.fault, r.frame, r.awaited)) =
        some (18, none, some { number := 1, time := 900 }) ∧
      (∀ (j : SlotNo) (r : Record), awaiting18.slots[j] = some r → r.fault ≠ 77) ∧
      (∀ r, awaiting18.slots[(2 : SlotNo)] = some r → ¬ (r.fault = 18 ∧ r.awaited = some { number := 2, time := 900 })) ∧
      confirmed18.Running ∧ confirmed18.EventMemoryWf ∧
      (∀ r, confirmed18.slots[(0 : SlotNo)] = some r → ¬ (r.fault = 18 ∧
        (r.frame = some 4 ∨ r.awaited = some { number := 1, time := 900 }))) := by
  refine ⟨⟨rfl, fun h => by cases h⟩,
    eventMemoryWf_of_check _ (by decide +kernel) (by decide +kernel) (by decide +kernel), by decide +kernel,
    others_of_check _ _ (by decide +kernel), ?_, confirmed18_running, confirmed18_events, ?_⟩
  · exact of_some (y := { record18 with awaited := some { number := 1, time := 900 } }) (by decide +kernel) (by decide)
  · exact of_some (y := record18) (by decide +kernel) (by decide)

/-- A CLEAR FAULTS that still waits for these faults. -/
def clearing (l : List FaultNo) : State :=
  confirmed18.setHandler { Handler.reset with clear := some { remaining := l, erased := 0, all := false } }

theorem witness_ClearEventErasesAndCounts :
    (∀ l, (clearing l).Running ∧ (clearing l).EventMemoryWf ∧
      (clearing l).handler.clear = some { remaining := l, erased := 0, all := false }) ∧
    (18 : FaultNo) ∉ [(77 : FaultNo)] ∧ ((18 : FaultNo) ∈ [(18 : FaultNo), 77] ∧ [(18 : FaultNo), 77].erase 18 ≠ []) ∧
    ((18 : FaultNo) ∈ [(18 : FaultNo)] ∧ [(18 : FaultNo)].erase 18 = []) :=
  ⟨fun _ => ⟨⟨rfl, fun h => by cases h⟩, ⟨confirmed18_events.1, confirmed18_events.2, confirmed18_events.3⟩, rfl⟩,
    by decide, by decide, by decide⟩

/-- Fault 18 tested and not confirmed in the ride, with its record in slot 0: aging limit 40, three lamp heal cycles. -/
def ending (age clean : Nat) (latch : Bool) : State :=
  State.records ((up .closing).setFault 18 { FaultEntry.reset with defn := some fault18, tested := true }) 0
    { record18 with age := age, clean := clean, lampLatch := latch }

theorem witness_RideEndRunsThePasses :
    (∀ a c l, (ending a c l).Running) ∧
    (∀ a c l, (ending a c l).slots[(0 : SlotNo)] = some { record18 with age := a, clean := c, lampLatch := l }) ∧
    ((ending 0 0 true).faults[(18 : FaultNo)]).defn = some fault18 ∧
    ((ending 0 0 true).faults[(18 : FaultNo)]).confirmedRide = false ∧
    ((ending 0 0 true).faults[(18 : FaultNo)]).tested = true ∧
    (fault18.aging ≠ 0 ∧ fault18.aging ≤ min 250 (39 + 1) ∧ min 250 (38 + 1) < fault18.aging) ∧
    (fault18.lampHeal ≤ 2 + 1 ∧ 1 + 1 < fault18.lampHeal) ∧
    (confirmed18.Running ∧ (confirmed18.faults[record18.fault]).defn ≠ none ∧
      (confirmed18.faults[record18.fault]).confirmedRide = true) ∧
    ((awaiting18.faults[(18 : FaultNo)]).defn = none) ∧ (up .closing).sup.suspects = none :=
  ⟨fun _ _ _ => ⟨rfl, fun h => by cases h⟩, fun _ _ _ => rfl, by decide +kernel, by decide +kernel, by decide +kernel,
    by decide, by decide, ⟨confirmed18_running, by decide +kernel, by decide +kernel⟩, by decide +kernel, rfl⟩

/-- CONFIG with fault 18 in the table, and 17 records in queue E, whose mask word is 0. -/
def toTake : State :=
  State.given ((State.records (up .config) 0 record18).setQueue .e
      { Queue.reset with takenTop := 17, occupancy := 17, capacity := 32 })
    [(0x0490, 0x7945), (0x0491, 8192), (0x0492, 2048), (0x0493, 40000), (0x0495, 20000), (0x0497, 0x2864),
      (0x0540, 0x2C00)]

/-- The same with the build at fault `f`. -/
def toBuild (f : FaultNo) : State :=
  toTake.setHandler
    { Handler.reset with
      take := some { valid := 1, invalid := 1, lowestInvalid := some 40,
                     found := (Vector.replicate 128 none).set 18 (some fault18), next := some f } }

/-- R37: half way through its build, the table gives the next take its fault built already. -/
theorem test_take_of_a_half_built_table :
    let s := toBuild 18
    let t := after .takeDefinitions s
    ((after .takeDefinitions toTake).handler.building.map fun b => b.1) = some 0 ∧
      (t.handler.building.map fun b => b.1) = some 19 ∧ t.inFlight = [.demandNotice 18, .takeDefinitions] ∧
      s.validate .a (report18 18 (some .fail)) = .reject 3 ∧ t.validate .a (report18 18 (some .fail)) = .reject 5 := by
  decide +kernel

theorem witness_TakeDefinitionsBuildsTheTable :
    toTake.Running ∧ toTake.QueuesWf ∧ toTake.EventMemoryWf ∧ toTake.sup.mode = .config ∧ (up .idle).sup.mode ≠ .config ∧
      readDefinition toTake.srr 18 = .valid fault18 ∧ readDefinition toTake.srr 40 = .invalid ∧
      toTake.slots[(0 : SlotNo)] = some record18 ∧ toTake.srr.read (aQueueMask .e) = 0 ∧
      15 + 1 < (toTake.queues.get .e).occupancy ∧ (toTake.queues.get .a).occupancy ≤ 15 + 1 ∧
      toTake.handler.building = none ∧
      (∀ f : FaultNo, (toBuild f).Running ∧ (toBuild f).QueuesWf ∧ (toBuild f).EventMemoryWf ∧
        (toBuild f).sup.mode = .config ∧ ∃ k, (toBuild f).handler.take = some k ∧ k.next = some f) ∧
      (126 : FaultNo).val + 1 < 128 ∧ (127 : FaultNo).val = 127 :=
  have q : toTake.QueuesWf := queuesWf_of_check _ (by decide +kernel)
  have m : toTake.EventMemoryWf :=
    eventMemoryWf_of_check _ (by decide +kernel) (by decide +kernel) (by decide +kernel)
  ⟨⟨rfl, fun h => by cases h⟩, q, m, rfl, by decide, by decide +kernel, by decide +kernel, by decide +kernel,
    by decide +kernel, by decide, by decide, rfl,
    fun _ => ⟨⟨rfl, fun h => by cases h⟩, q, ⟨m.1, m.2, m.3⟩, rfl, _, rfl, rfl⟩, by decide, rfl⟩

theorem witness_RequestsChangeTheMode :
    (up .idle).Running ∧ (up .idle).sup.mode = .idle ∧ (up .idle).sup.mode ≠ .ride ∧ (up .idle).handler.start = none ∧
      (up .ride).Running ∧ (up .ride).sup.mode = .ride ∧ (up .ride).sup.mode ≠ .idle ∧ (up .ride).handler.start = none ∧
      (let s := State.holds (up .idle) 4 capture18
       s.Running ∧ s.sup.mode = .idle ∧ s.pool[(4 : BufNo)] = some capture18 ∧ capture18.holder = .provisional) :=
  ⟨⟨rfl, by decide⟩, rfl, by decide, rfl, ⟨rfl, by decide⟩, rfl, by decide, rfl, ⟨rfl, fun h => by cases h⟩, rfl,
    by decide +kernel, rfl⟩

/-- CLOSING with both counts in hand. -/
def counted : State :=
  (up .closing).setSup { (up .closing).sup with engineRun := 6000, maxSpeed := 320, aged := some 1, suspects := some 2 }

/-- CONFIG with a build to end. -/
def built1 : TakeRun := { valid := 1, invalid := 0, lowestInvalid := none, found := Vector.replicate 128 none, next := none }

def building : State := (up .config).setHandler { Handler.reset with take := some built1 }

theorem witness_LongRequestsComplete :
    (counted.Running ∧ counted.sup.mode = .closing ∧ counted.sup.aged = some 1 ∧ counted.sup.suspects = some 2 ∧
      6000 ≤ counted.sup.engineRun ∧ 320 ≤ counted.sup.maxSpeed.toNat) ∧
    ((up .closing).Running ∧ (up .closing).sup.aged = none ∧ (up .closing).sup.suspects = none) ∧
    ((up .ride).Running ∧ (up .ride).sup.mode ≠ .closing ∧ (up .ride).handler.take = none) ∧
    (building.Running ∧ building.sup.mode = .config ∧
      building.handler.take = some built1) ∧
    (∀ r l, (starting r l).Running ∧ (starting r l).handler.start = some { rings := r, lamps := l }) :=
  ⟨⟨⟨rfl, fun h => by cases h⟩, rfl, rfl, rfl, by decide, by decide⟩, ⟨⟨rfl, by decide⟩, rfl, rfl⟩,
    ⟨⟨rfl, by decide⟩, by decide, rfl⟩, ⟨⟨rfl, fun h => by cases h⟩, rfl, rfl⟩,
      fun _ _ => ⟨⟨rfl, fun h => by cases h⟩, rfl⟩⟩

/-- The arguments 0, 127 and 255 name faults, 128 and 254 none. -/
theorem witness_ClearFaultsAndAbsReadyAreChecked :
    ((up .config).Running ∧ ¬ ((up .config).sup.mode = .idle ∨ (up .config).sup.mode = .ride)) ∧
    ((up .idle).Running ∧ ((up .idle).sup.mode = .idle ∨ (up .idle).sup.mode = .ride)) ∧
    (([0, 127, 255, 128, 254] : List Word).map fun w => decide (w.toNat < 128 ∨ w = 0x00FF)) =
      [true, true, true, false, false] ∧
    (((up .ride).setSup { (up .ride).sup with moving := true }).Running ∧
      ((up .ride).setSup { (up .ride).sup with moving := true }).sup.moving = true) ∧
    ((up .ride).Running ∧ (up .ride).sup.mode = .ride ∧ (up .ride).sup.moving = false ∧ (up .idle).sup.mode ≠ .ride) :=
  ⟨⟨⟨rfl, by decide⟩, by decide⟩, ⟨⟨rfl, by decide⟩, by decide⟩, by decide, ⟨⟨rfl, fun h => by cases h⟩, rfl⟩,
    ⟨⟨rfl, by decide⟩, rfl, rfl, by decide⟩⟩

/-- A request with a code posted at Port E, in CONFIG. -/
def coded (state code : Word) : State := State.given (up .config) [(0x0100, state), (0x0101, code)]

theorem witness_RequestsAreTakenAndRestarted :
    (∀ v c, (coded v c).Running ∧ (coded v c).handler.orphan.get .e = false) ∧
    (([0, 1, 2, 3].map fun v => (coded v 1).srr.read (aRequest .e)) = [0, 1, 2, 3]) ∧
    (([0, 1, 5, 6, 7].map fun c => (coded 1 c).srr.read (aCode .e)) = [0, 1, 5, 6, 7]) ∧
    (1 ≤ (6 : Word).toNat ∧ (6 : Word).toNat ≤ 6 ∧ (0 : Word).toNat = 0 ∧ 6 < (7 : Word).toNat) ∧
    ((coded 1 1).setHandler { Handler.reset with orphan := { e := true, a := false } }).handler.orphan.get .e = true :=
  ⟨fun _ _ => ⟨⟨rfl, fun h => by cases h⟩, rfl⟩, by decide +kernel, by decide +kernel, by decide, rfl⟩

/-- Port E with its enable set full and CONFIRM latched, or with nothing enabled. -/
def attended (enable latched : Word) : State :=
  (State.given (up .ride) [(0x0108, enable), (0x010B, latched)]).setEnables .e enable

theorem witness_AttentionFollowsItsSets :
    (∀ e l, (attended e l).held = false) ∧
    (causeCode .confirm - 1 = 3 ∧ causeCode .reject - 1 = 2) ∧
    ((attended 0 0).enables.get .e).getLsbD 3 = false ∧
    (((attended 0x07FF 8).srr.read (aLatched .e)).getLsbD 3 = true ∧
      ((attended 0x07FF 8).enables.get .e).getLsbD 2 = true ∧
      ((attended 0x07FF 8).srr.read (aLatched .e)).getLsbD 2 = false ∧
      (attended 0x07FF 8).srr.read (aLatched .e) &&& 8 ≠ 0 ∧ (attended 0x07FF 8).srr.read (aLatched .e) &&& 0xFFF7 = 0) :=
  ⟨fun _ _ => rfl, by decide, by decide +kernel, by decide +kernel⟩

/-- The bulb check that ends at 1100. -/
def bulbing (now : Time) : State := (clocked .ride now).setSup { (clocked .ride now).sup with bulb := some 1100 }

theorem witness_TickRaisesTheExpiries :
    (ringed 0 49).held = false ∧ (bulbing 1100).held = false ∧ (bulbing 1100).sup.bulb = some 1100 ∧
      200 ≤ ((bulbing 1100).sup.rideClock - ((1100 : Time) - 200)).toNat ∧
      ((bulbing 1099).sup.rideClock - ((1100 : Time) - 200)).toNat < 200 := by
  refine ⟨rfl, rfl, rfl, by decide, by decide⟩

/-- Fault 18's record and its CONFIRMED state both stand for the ABS lamp; in CONFIG it is STEADY without them. -/
theorem witness_DemandIsTheHighestContribution :
    (confirmed18.sup.mode = .ride ∧ (confirmed18.faults[(18 : FaultNo)]).defn = some fault18 ∧
      lampHas fault18.lamp .abs = true ∧ fault18.critical = false ∧
      (confirmed18.faults[(18 : FaultNo)]).phase = .confirmed) ∧
    (confirmed18.slots[(0 : SlotNo)] = some record18 ∧ record18.lampLatch = true ∧ lampHas record18.lamp .abs = true) ∧
    (up .config).sup.mode = .config ∧ confirmed18.demandOf .abs = .steady ∧ (up .idle).demandOf .engine = .off := by
  refine ⟨by decide +kernel, by decide +kernel, rfl, by decide +kernel, by decide +kernel⟩

theorem witness_LampsFollowTheirEvents :
    lampHas (lampsConcerned none (some record18)) .engine = false ∧ (up .ride).held = false ∧
      (up .ride).handler.start = none ∧ (starting true true).held = false ∧ (starting true true).handler.start ≠ none ∧
      ((up .ride).lamps.get .abs).short = false ∧
      ((after (.overcurrentDetection .abs) (up .ride)).lamps.get .abs).short = true ∧
      (after (.overcurrentDetection .abs) (up .ride)).held = false := by decide +kernel

/-- The header image in flight, marked again or not, with slot 3 dirty or not. -/
def writing (rewrite : Bool) (dirty : List ImageId) : State :=
  (up .idle).setStore
    { Store.delivered with dirty := dirty, writing := some { image := .header, content := headerImage 45, rewrite :=
       rewrite } }

theorem writing_captures (r : Bool) (d : List ImageId) : (writing r d).CapturesWf := up_captures .idle

theorem witness_WriterWritesDirtyImages :
    (∀ r d, (writing r d).Running ∧ (writing r d).CapturesWf ∧
      (writing r d).store.writing = some { image := .header, content := headerImage 45, rewrite := r } ∧
      (writing r d).store.dirty = d) ∧
    ((up .idle).Running ∧ (up .idle).CapturesWf ∧ (up .idle).store.writing = none ∧ (up .idle).store.supplyLow = false ∧
      ImageId.header ∉ (up .idle).store.dirty) ∧
    (let s := (up .idle).setStore { Store.delivered with dirty := [.slot 3, .slot 0] }
     s.Running ∧ s.CapturesWf ∧ s.store.writing = none ∧ s.store.supplyLow = false ∧ ImageId.slot 3 ∈ s.store.dirty) ∧
    ((up .startUp).store.supplyLow ≠ true ∧ ¬ (up .startUp).Running ∧ heldReading.store.supplyLow ≠ true ∧
      ¬ heldReading.Running ∧ (up .idle).store.supplyLow ≠ true) :=
  ⟨fun _ _ => ⟨⟨rfl, fun h => by cases h⟩, writing_captures _ _, rfl, rfl⟩,
    ⟨⟨rfl, by decide⟩, up_captures _, rfl, rfl, by decide⟩, ⟨⟨rfl, fun h => by cases h⟩, up_captures .idle, rfl, rfl,
    by decide⟩, by decide, fun h => h.2 rfl, by decide, fun h => Bool.false_ne_true h.1.symm, by decide⟩

/-- R132, R151 and log entry 15: in START-UP and in the hold the level is followed and its word not stored. -/
theorem test_supply_low_outside_running :
    ([up .startUp, heldReading, up .ride].map fun s =>
      let t := after (.supplyLowChange true) s
      (t.store.supplyLow, t.stores)) = [(true, []), (true, []), (true, [(0x000B, 1)])] := by decide +kernel

/-- A store that holds the image of record 18 in slot 0 and a bad image in slot 1. -/
def stored18 : State :=
  let s := State.records (up .idle) 0 { record18 with episodeFlag := false }
  s.setStore { Store.delivered with images := (Store.delivered.images.set 0 (s.compose (.slot 0))).set 1 [] }

theorem witness_ResetLoadsTheImages :
    (stored18.held = false ∧ stored18.MemoryWf ∧ stored18.store.writing = none) ∧
    readSlotImage stored18.store.images[(0 : SlotNo)] = .record { record18 with episodeFlag := false } ∧
    readSlotImage stored18.store.images[(1 : SlotNo)] = .bad ∧
    readSlotImage stored18.store.images[(2 : SlotNo)] = .erased ∧
    readHeaderImage stored18.store.header = some 0 ∧
    ((writing false []).held = false ∧
      (writing false []).store.writing = some { image := .header, content := headerImage 45, rewrite := false }) ∧
    (State.reset.held = false ∧ State.reset.sup.mode = .startUp ∧ State.reset.ControlAreaWf ∧ (up .ride).held = false ∧
      (up .ride).sup.mode ≠ .startUp) := by
  refine ⟨⟨rfl, ⟨⟨by decide +kernel, by decide +kernel⟩, zeros_of_check (by decide +kernel),
    ⟨by decide +kernel, by decide +kernel⟩, fun i => ⟨by revert i; decide +kernel, by revert i; decide +kernel⟩,
    of_none rfl, up_captures .idle⟩, rfl⟩, by decide +kernel,
    by decide +kernel, by decide +kernel, by decide +kernel, ⟨rfl, rfl⟩, rfl, rfl,
    ⟨fun _ h => absurd rfl h, fun _ p => by cases p <;> rfl⟩, rfl, by decide⟩

/-- R172: the load of a latched record raises its record lamp notice. -/
theorem test_load_raises_a_lamp_notice :
    (after .partReset stored18).inFlight = [.recordLampNotice ⟨.abs, none⟩, .loadComplete] := by decide +kernel

/-! ### The order of stores and of takes -/

/-- Before the stores of a command, and after the first `n` of them. -/
theorem between_before (s t : State) : Between s t s.srr := ⟨t.stores, [], rfl, rfl⟩

theorem between_after (s t : State) (n : Nat) : Between s t (s.srr.writeAll (t.stores.take n)) :=
  ⟨t.stores.drop n, t.stores.take n, (List.take_append_drop n _).symm, rfl⟩

theorem after_next {c : Instr} {s : State} (h : goesOn (exec c s) = true) : exec c s = .next (after c s) := by
  obtain ⟨t, ht⟩ := next_of_goesOn h
  rw [after, ht]

theorem witness_StoresComeInTheirOrder :
    (stepping.ViewsFaithful ∧ stepping.CapturesWf ∧
      ∃ t, exec (.captureUnitClear 18) stepping = .next t ∧ t.stores ≠ [] ∧ ∃ m, m ≠ stepping.srr ∧
        Between stepping t stepping.srr ∧ Between stepping t m) ∧
    (∃ t, exec .partReset stored18 = .next t ∧ t.stores = t.stores.take 12 ++ t.stores.drop 12 ∧
      (Mem.writeAll [] (t.stores.take 12)).read (recordView 0 + 10) = 2 ∧
      bit ((Mem.writeAll [] (t.stores.take 12)).read (indexView + 1)) 0 = false) ∧
    (∀ l : Word, (waiting 0 l).Running ∧ ∃ t, exec (.recordTake .a) (waiting 0 l) = .next t) ∧
    ((queued .ride 65533 9).Running ∧ ∃ t, exec (.topTaken .a 14) (queued .ride 65533 9) = .next t) ∧
    (∃ t, exec .closingComplete counted = .next t ∧ (aRequest .e, 3) ∈ t.stores) ∧
    ∃ t, exec .startRide (up .ride) = .next t ∧ (aRequest .e, 4) ∈ t.stores := by
  refine ⟨⟨witness_StepKeepsViewsAndMirrors.2.1, witness_StepKeepsViewsAndMirrors.1,
      after (.captureUnitClear 18) stepping, after_next ?_, ?_, _, ?_, between_before _ _, between_after _ _ 1⟩,
    ⟨after .partReset stored18, after_next ?_, (List.take_append_drop _ _).symm, ?_, ?_⟩,
    fun l => ⟨waiting_running 0 l, _, rfl⟩, ⟨⟨rfl, by decide⟩, _, rfl⟩, ⟨_, after_next ?_, ?_⟩,
    ⟨_, after_next ?_, ?_⟩⟩ <;> decide +kernel

/-- R19, R88: in a takeover the samples are in their places before the header, rewritten once, counts them. -/
theorem test_takeover_copies_before_it_counts :
    let s := State.given (fullPool.setRing .a { Tracker.reset with lastHead := 1, held := 1 }) [(0x1A00, 900), (0x1A01, 5)]
    let t := after (.trigger 18 { number := 1, time := 900 } .a 4 6 13) s
    t.stores.map Prod.fst = (List.range 8).map (placeAddress 5 0 + ·) ++
        (bufferBase 5 + 7) :: (List.range 8).map (bufferBase 5 + ·) ∧
      (t.pool[5].map fun c => (c.fault, c.preGot)) = some (18, 1) ∧ t.srr.read (placeAddress 5 0 + 1) = 5 := by
  decide +kernel

/-- A trigger of fault 18 and its confirm notice in flight, with some event about to be taken. -/
def triggered (c : Instr) : State :=
  { clocked .ride 900 with
    pending := [c],
    inFlight := [.trigger 18 { number := 1, time := 900 } .a 4 6 12, .confirmNotice 18 { number := 1, time := 900 },
      .flashTick] }

theorem safeStep_of_check {s t : State} {c : Instr} (hp : s.pending = [c])
    (hc : (c.wellFormed && s.mayTake c) = true) (ht : step s = .next t) : SafeStep s t := by
  rw [Bool.and_eq_true] at hc
  unfold SafeStep
  rw [hp]
  exact ⟨hc.1, hc.2, ht⟩

/-- The confirm notice waits for the trigger; the flash tick is taken before both, and leaves them in their order. -/
theorem witness_SafeStepsKeepTheOrder :
    let x : Instr := .trigger 18 { number := 1, time := 900 } .a 4 6 12
    let y : Instr := .confirmNotice 18 { number := 1, time := 900 }
    (∃ t, SafeStep (triggered x) t) ∧ (triggered y).mayTake y = false ∧
    (∃ t, SafeStep (triggered .flashTick) t ∧ SafeRun (triggered .flashTick) t) ∧ (triggered .flashTick).EnablesFollow ∧
    (mustPrecede x y = true ∧ x ≠ y ∧ [x, y].Sublist (triggered .flashTick).inFlight ∧
      (triggered .flashTick).pending.head? ≠ some x ∧ (triggered .flashTick).pending.head? ≠ some .partReset) ∧
    (({ up .idle with inFlight := [.startRide, .requestRestart .e, .requestRestart .a] } : State).mayTake
        (.requestRestart .e) = false ∧
      ({ up .idle with inFlight := [.startRide, .requestRestart .e, .requestRestart .a] } : State).mayTake
        (.requestRestart .a) = true) := by
  have h1 := next_of_goesOn (o := step (triggered (.trigger 18 { number := 1, time := 900 } .a 4 6 12)))
    (by decide +kernel)
  have h2 := next_of_goesOn (o := step (triggered .flashTick)) (by decide +kernel)
  obtain ⟨t1, h1⟩ := h1
  obtain ⟨t2, h2⟩ := h2
  have s2 : SafeStep (triggered .flashTick) t2 := safeStep_of_check rfl (by decide) h2
  refine ⟨⟨t1, safeStep_of_check rfl (by decide) h1⟩, by decide, ⟨t2, s2, .next (.start _) s2⟩,
    ⟨fun _ p _ => ?_, fun _ h => absurd h (by decide)⟩, by decide, by decide⟩
  cases p <;> rfl

end Sys2Proof.Tests
end

section
/-! SUPPORT. How far commands reach, and what the completion of a request does: the laws that the statements about requests
rest on (R187 to R193). -/

namespace Sys2Proof.Requests
open Sys2Proof.Machine

/-! ### Areas of the SRR -/

theorem srrOnly_of_eq {s t : State} (h : t.srr = s.srr) (area : Nat → Prop) : SrrOnly s t area :=
  fun a _ => by rw [h]

theorem srrOnly_trans {s t u : State} {area area' : Nat → Prop} (h : SrrOnly s t area) (h' : SrrOnly t u area') :
    SrrOnly s u fun a => area a ∨ area' a :=
  fun a ha => (h' a fun hb => ha (.inr hb)).trans (h a fun hb => ha (.inl hb))

theorem srrOnly_mono {s t : State} {area area' : Nat → Prop} (h : SrrOnly s t area) (hsub : ∀ a, area a → area' a) :
    SrrOnly s t area' :=
  fun a ha => h a fun hb => ha (hsub a hb)

theorem srrOnly_put (s : State) (a : Nat) (v : Word) : SrrOnly s (s.put a v) (· = a) :=
  fun _ hb => Mem.read_write_other _ _ hb

/-- Several stores reach the addresses they name. -/
theorem srrOnly_writeAll {s t : State} {ws : List (Nat × Word)} (h : t.srr = s.srr.writeAll ws) :
    SrrOnly s t fun a => a ∈ ws.map (·.1) := fun a ha => by
  rw [h, Mem.read_writeAll_other]
  rintro w hw rfl
  exact ha (List.mem_map_of_mem hw)

/-! ### Completions (R190, R193) -/

/-- What a completion changes beside the SRR: the orphan flag falls, and an event is raised. -/
theorem complete_frame (s : State) (p : Port) (st r0 r1 r2 : Word) :
    s.complete p st r0 r1 r2 =
      { s with handler := { s.handler with orphan := s.handler.orphan.set p false },
               inFlight := s.inFlight ++ completionEvents s p,
               srr := (s.complete p st r0 r1 r2).srr, stores := (s.complete p st r0 r1 r2).stores } := by
  cases h : s.handler.orphan.get p with
  | false =>
    have hset : s.handler.orphan.set p false = s.handler.orphan := by rw [← h, Both.set_get]
    rw [State.complete_eq h, State.putAll_eq, hset]
    simp [completionEvents, h, State.latch, State.raise]
  | true =>
    unfold State.complete completionEvents
    rw [if_pos h, if_pos h]
    dsimp only
    by_cases hp : s.srr.read (aRequest p) = 1
    · rw [if_pos (by exact hp), if_pos hp]
      rfl
    · rw [if_neg (by exact hp), if_neg hp]
      simp [State.setHandler]

theorem requestWord_iff (p : Port) (a : Nat) :
    requestWord p a ↔ a = serviceBase p ∨ (serviceBase p + 4 ≤ a ∧ a ≤ serviceBase p + 7) := by
  simp only [requestWord, aRequest, aStatus, aResult, List.mem_cons, List.not_mem_nil, or_false]
  omega

/-- A completion stores the words of its request block alone. -/
theorem complete_srrOnly (s : State) (p : Port) (st r0 r1 r2 : Word) :
    SrrOnly s (s.complete p st r0 r1 r2) (requestWord p) := by
  cases h : s.handler.orphan.get p with
  | false =>
    rw [State.complete_eq h]
    refine srrOnly_mono (srrOnly_writeAll (State.putAll_srr ..)) fun a ha => ?_
    simp only [List.map_cons, List.map_nil, List.mem_cons, List.not_mem_nil, or_false] at ha
    simp only [requestWord, List.mem_cons, List.not_mem_nil, or_false]
    tauto
  | true => exact srrOnly_of_eq (State.complete_orphan h ..).1 _

theorem complete_completed (s : State) (p : Port) (st r0 r1 r2 : Word) :
    Completed s (s.complete p st r0 r1 r2) p st r0 r1 r2 := by
  constructor
  · intro h
    rw [State.complete_eq h]
    simp [Mem.read_write, aRequest, aStatus, aResult, accepted, reqDone, reqRefused, Nat.add_assoc]
    rfl
  · intro h a _
    rw [(State.complete_orphan h ..).1]

/-- A completion that comes after stores elsewhere is a completion of the command as a whole. -/
theorem completed_congr {s s' t : State} {p : Port} {st r0 r1 r2 : Word} (h : Completed s' t p st r0 r1 r2)
    (horphan : s'.handler.orphan = s.handler.orphan)
    (hread : s.handler.orphan.get p = true → ∀ a, requestWord p a → s'.srr.read a = s.srr.read a) :
    Completed s t p st r0 r1 r2 := by
  obtain ⟨hplain, horph⟩ := h
  rw [horphan] at hplain horph
  exact ⟨hplain, fun ho a ha => (horph ho a ha).trans (hread ho a ha)⟩

theorem completionEvents_congr {s s' : State} {p : Port} (horphan : s'.handler.orphan = s.handler.orphan)
    (hread : s.handler.orphan.get p = true → s'.srr.read (aRequest p) = s.srr.read (aRequest p)) :
    completionEvents s' p = completionEvents s p := by
  unfold completionEvents
  rw [horphan]
  split
  · rw [hread (by assumption)]
  · rfl

theorem aMode_not_requestWord (p : Port) : ¬ requestWord p aMode := by
  rw [requestWord_iff]
  cases p <;> decide

/-- A change between two modes other than RIDE, and the completion of Port E's request after it (R129, R190). -/
structure ChangedAndCompleted (u t : State) (m : Mode) (st r0 r1 r2 : Word) : Prop where
  frame : t = { u with
    sup := { u.sup with mode := m },
    handler := { u.handler with fdtLocked := false, orphan := u.handler.orphan.set .e false },
    inFlight := u.inFlight ++ .modeNotice :: completionEvents u .e, srr := t.srr, stores := t.stores }
  mode : t.srr.read aMode = BitVec.ofNat 16 m.code
  completed : Completed u t .e st r0 r1 r2
  reach : SrrOnly u t fun a => a = aMode ∨ requestWord .e a

theorem changeMode_complete {u : State} {m : Mode} (hm : m ≠ .ride) (hu : u.sup.mode ≠ .ride) (st r0 r1 r2 : Word) :
    ChangedAndCompleted u ((u.changeMode m).complete .e st r0 r1 r2) m st r0 r1 r2 := by
  have hc : (u.changeMode m).srr = u.srr.write aMode (BitVec.ofNat 16 m.code) := by rw [State.changeMode_eq]
  have ho : (u.changeMode m).handler.orphan = u.handler.orphan := by rw [State.changeMode_eq]
  have hreach : SrrOnly u (u.changeMode m) (· = aMode) := fun a ha => by rw [hc, Mem.read_write_other _ _ ha]
  have hread : ∀ a, requestWord .e a → (u.changeMode m).srr.read a = u.srr.read a := fun a ha =>
    hreach a fun he => aMode_not_requestWord .e (he ▸ ha)
  constructor
  · rw [complete_frame, completionEvents_congr ho fun _ => hread _ (List.mem_cons_self ..), State.changeMode_eq]
    simp [hm, hu]
  · rw [complete_srrOnly _ _ _ _ _ _ _ (aMode_not_requestWord .e), hc, Mem.read_write_same]
  · exact completed_congr (complete_completed ..) ho fun _ => hread
  · exact srrOnly_trans hreach (complete_srrOnly (u.changeMode m) .e st r0 r1 r2)

/-! ### Refusals (R189) -/

/-- A command that does no more than refuse, with a store to the state word before it where the request is no orphan. -/
theorem refuses_of_exec {c : Instr} {p : Port} {s u : State} {st : Word} (hx : exec c s = .next (u.refuse p st))
    (hu : u = { s with inFlight := s.inFlight.erase c, stores := u.stores, srr := u.srr })
    (hsrr : SrrOnly s u (· = aRequest p))
    (horphan : s.handler.orphan.get p = true → u.srr = s.srr) : Refuses c p s st := by
  have hh : u.handler = s.handler := by rw [hu]
  have hread : s.handler.orphan.get p = true → ∀ a, u.srr.read a = s.srr.read a := fun ho a => by rw [horphan ho]
  refine ⟨_, hx, ?_, ?_, ?_, ?_⟩
  · unfold State.refuse
    rw [complete_frame, hu]
  · exact completed_congr (complete_completed ..) (by rw [hh]) fun ho a _ => hread ho a
  · refine srrOnly_mono (srrOnly_trans hsrr (complete_srrOnly u p st 0 0 0)) fun a ha => ?_
    rcases ha with rfl | ha
    · exact List.mem_cons_self ..
    · exact ha
  · have hf : (u.refuse p st).inFlight = u.inFlight ++ completionEvents u p := by
      unfold State.refuse
      rw [complete_frame]
    rw [Raises, hf, completionEvents_congr (by rw [hh]) fun ho => hread ho _]
    rw [hu]

theorem refuses_of_begin {c : Instr} {p : Port} {s : State} {st : Word}
    (hx : exec c s = .next ((s.begin c).refuse p st)) : Refuses c p s st :=
  refuses_of_exec hx rfl (srrOnly_of_eq rfl _) fun _ => rfl

end Sys2Proof.Requests
end

section
/-! SUPPORT. The Request Handler (R189, R192): what a take of a posted request and a restart do, and the statement about
them. -/

namespace Sys2Proof.Requests
open Sys2Proof.Machine

/-! ### The take of a posted request (R189) -/

theorem read_put_aRequest (s : State) (p : Port) (v : Word) {a : Nat} (h : a ≠ aRequest p) :
    (s.put (aRequest p) v).srr.read a = s.srr.read a := Mem.read_write_other _ _ h

theorem aCode_ne_aRequest (p : Port) : aCode p ≠ aRequest p := by simp [aCode, aRequest]

theorem aArg0_ne_aRequest (p : Port) : aArg0 p ≠ aRequest p := by simp [aArg0, aRequest]

/-- A request whose code the port may post is dispatched to its owner, a TAKE DEFINITIONS in CONFIG with the lock (R23). -/
theorem takeRequest_dispatch {s : State} {p : Port} {c : Instr}
    (h : requestOwner p (s.srr.read (aCode p)) (s.srr.read (aArg0 p)) = some c) :
    s.takeRequest p =
      { s with srr := s.srr.write (aRequest p) reqTaken, stores := s.stores ++ [(aRequest p, reqTaken)],
               inFlight := s.inFlight ++ [c],
               handler := { s.handler with
                 fdtLocked := s.handler.fdtLocked ||
                   (decide (c = .takeDefinitions) && decide (s.sup.mode = .config)) } } := by
  unfold State.takeRequest
  dsimp only
  rw [read_put_aRequest s p _ (aCode_ne_aRequest p), read_put_aRequest s p _ (aArg0_ne_aRequest p), h]
  dsimp only
  by_cases hl : c = .takeDefinitions ∧ s.sup.mode = .config
  · rw [if_pos (by exact hl)]
    simp [hl, State.put, State.setHandler, State.raise]
  · have hd : (decide (c = .takeDefinitions) && decide (s.sup.mode = .config)) = false := by simpa using hl
    rw [if_neg (by exact hl), hd, Bool.or_false]
    rfl

/-- A request with any other code is refused. -/
theorem takeRequest_refuse {s : State} {p : Port}
    (h : requestOwner p (s.srr.read (aCode p)) (s.srr.read (aArg0 p)) = none) :
    s.takeRequest p =
      (s.put (aRequest p) reqTaken).refuse p
        (if 1 ≤ (s.srr.read (aCode p)).toNat ∧ (s.srr.read (aCode p)).toNat ≤ 6 then notPermitted else badArgument) := by
  unfold State.takeRequest
  dsimp only
  rw [read_put_aRequest s p _ (aCode_ne_aRequest p), read_put_aRequest s p _ (aArg0_ne_aRequest p), h]

/-- Both events at which a request is taken take it just where it is POSTED behind no orphan (R189, R193). -/
theorem exec_takeIfPosted {s : State} (h : s.Running) {p : Port} {c : Instr}
    (hc : c ∈ [Instr.requestPosted p, Instr.waitingRequestTake p]) :
    exec c s = .next ((s.begin c).takeIfPosted p) := by
  simp only [List.mem_cons, List.not_mem_nil, or_false] at hc
  rcases hc with rfl | rfl <;> exact State.takeUp_free h.1 h.2 ..

theorem takeIfPosted_pos {s : State} {p : Port} (h : s.srr.read (aRequest p) = 1)
    (ho : s.handler.orphan.get p = false) : s.takeIfPosted p = s.takeRequest p :=
  if_pos ⟨h, ho⟩

theorem takeIfPosted_neg {s : State} {p : Port}
    (h : ¬ (s.srr.read (aRequest p) = 1 ∧ s.handler.orphan.get p = false)) : s.takeIfPosted p = s :=
  if_neg h

/-- A code of neither port's requests, or of the other port's, is refused (R189). -/
theorem taken_refuses {s : State} (h : s.Running) {p : Port} {c : Instr} {st : Word}
    (hc : c ∈ [Instr.requestPosted p, Instr.waitingRequestTake p])
    (hposted : s.srr.read (aRequest p) = 1) (ho : s.handler.orphan.get p = false)
    (howner : requestOwner p (s.srr.read (aCode p)) (s.srr.read (aArg0 p)) = none)
    (hst : (if 1 ≤ (s.srr.read (aCode p)).toNat ∧ (s.srr.read (aCode p)).toNat ≤ 6 then notPermitted
      else badArgument) = st) : Refuses c p s st := by
  have hx : exec c s = .next (((s.begin c).put (aRequest p) reqTaken).refuse p st) := by
    rw [exec_takeIfPosted h hc, takeIfPosted_pos (by exact hposted) (by exact ho),
      takeRequest_refuse (by exact howner), ← hst]
    rfl
  exact refuses_of_exec hx rfl (srrOnly_put (s.begin c) _ _) fun h => absurd h (by simp [ho])

theorem word_eq_iff_toNat (w : Word) {n : Nat} (h : n < 65536) : w = BitVec.ofNat 16 n ↔ w.toNat = n := by
  rw [← BitVec.toNat_inj, BitVec.toNat_ofNat, Nat.mod_eq_of_lt h]

theorem requestOwner_e {code arg0 : Word} {n : Nat} (h : code.toNat = n) :
    requestOwner .e code arg0 =
      if n = 1 then some .takeDefinitions else if n = 2 then some .returnToConfig else if n = 3 then some .startRide
      else if n = 4 then some .endRide else if n = 5 then some (.clearFaults arg0) else none := by
  subst h
  simp only [requestOwner, ← word_eq_iff_toNat code (show 1 < 65536 by decide),
    ← word_eq_iff_toNat code (show 2 < 65536 by decide), ← word_eq_iff_toNat code (show 3 < 65536 by decide),
    ← word_eq_iff_toNat code (show 4 < 65536 by decide), ← word_eq_iff_toNat code (show 5 < 65536 by decide)]
  rfl

theorem requestOwner_a {code arg0 : Word} {n : Nat} (h : code.toNat = n) :
    requestOwner .a code arg0 = if n = 6 then some .absReady else none := by
  subst h
  simp only [requestOwner, ← word_eq_iff_toNat code (show 6 < 65536 by decide)]
  rfl

/-! ### Restart (R192) -/

/-- In every state but IDLE a restart stores IDLE, and orphans a TAKEN request. -/
theorem exec_requestRestart {s : State} (h : s.Running) {p : Port} (hs : s.srr.read (aRequest p) ≠ 0) :
    exec (.requestRestart p) s = .next
      { s with inFlight := s.inFlight.erase (.requestRestart p), stores := [(aRequest p, reqIdle)],
               srr := s.srr.write (aRequest p) reqIdle,
               handler := { s.handler with
                 orphan := s.handler.orphan.set p
                   (s.handler.orphan.get p || decide (s.srr.read (aRequest p) = 2)) } } := by
  change execRequestRestart p s = _
  rw [execRequestRestart, State.takeUp_free h.1 h.2, if_neg (by exact hs)]
  dsimp only
  by_cases ht : s.srr.read (aRequest p) = 2
  · rw [if_pos (by exact ht), ht]
    simp only [decide_true, Bool.or_true]
    rfl
  · rw [if_neg (by exact ht), decide_eq_false ht, Bool.or_false, Both.set_get]
    rfl

/-- What the take of a POSTED request comes to, by the owner that its code names. -/
theorem taken_by_owner {s : State} (h : s.Running) {p : Port} {cmd : Instr} {owner : Option Instr}
    (hcmd : cmd ∈ [Instr.requestPosted p, Instr.waitingRequestTake p])
    (hown : requestOwner p (s.srr.read (aCode p)) (s.srr.read (aArg0 p)) = owner)
    (hposted : s.srr.read (aRequest p) = 1) (ho : s.handler.orphan.get p = false) :
    (∀ c, owner = some c →
      ∃ t, exec cmd s = .next t ∧
        t = { s with
          inFlight := t.inFlight, stores := t.stores, srr := t.srr,
          handler := { s.handler with
            fdtLocked := s.handler.fdtLocked ||
              (decide (c = .takeDefinitions) && decide (s.sup.mode = .config)) } } ∧
        t.srr.read (aRequest p) = 2 ∧ SrrOnly s t (fun a => a = aRequest p) ∧ Raises cmd s t [c]) ∧
    (owner = none → 1 ≤ (s.srr.read (aCode p)).toNat → (s.srr.read (aCode p)).toNat ≤ 6 → Refuses cmd p s 3) ∧
    ((s.srr.read (aCode p)).toNat = 0 ∨ 6 < (s.srr.read (aCode p)).toNat → Refuses cmd p s 2) := by
  refine ⟨?_, ?_, ?_⟩
  · rintro c rfl
    refine ⟨_, exec_takeIfPosted h hcmd, ?_⟩
    rw [takeIfPosted_pos (by exact hposted) (by exact ho), takeRequest_dispatch (by exact hown)]
    exact ⟨rfl, Mem.read_write_same .., fun a ha => Mem.read_write_other _ _ ha, rfl⟩
  · rintro rfl hlow hhigh
    exact taken_refuses h hcmd hposted ho hown (if_pos ⟨hlow, hhigh⟩)
  · intro hcode
    refine taken_refuses h hcmd hposted ho ?_ (if_neg (by omega))
    cases p
    · rw [requestOwner_e rfl, if_neg (by omega), if_neg (by omega), if_neg (by omega), if_neg (by omega),
        if_neg (by omega)]
    · rw [requestOwner_a rfl, if_neg (by omega)]

/-- Settles O54, from what a take, a refusal and a restart do at the request block. -/
theorem requestsAreTakenAndRestarted : Obligations.RequestsAreTakenAndRestarted := by
  intro s p h
  dsimp only
  refine ⟨fun cmd hcmd => ⟨fun hn => ?_, fun hposted ho => taken_by_owner h hcmd ?_ hposted ho⟩, ?_,
    fun hs => ?_, fun hs => ⟨_, exec_requestRestart h hs, rfl, Mem.read_write_same ..,
      fun a ha => Mem.read_write_other _ _ ha⟩⟩
  · rw [ChangesNothing, exec_takeIfPosted h hcmd, takeIfPosted_neg (by exact hn)]
  · generalize hn : (s.srr.read (aCode p)).toNat = n
    cases p
    · rw [requestOwner_e hn]
      match n with
      | 0 | 1 | 2 | 3 | 4 | 5 => rfl
      | n + 6 => rfl
    · rw [requestOwner_a hn]
      match n with
      | 0 | 1 | 2 | 3 | 4 | 5 | 6 => rfl
      | n + 7 => rfl
  · change execRequestReleased p s = _
    rw [execRequestReleased, State.takeUp_free h.1 h.2]
  · change execRequestRestart p s = _
    rw [execRequestRestart, State.takeUp_free h.1 h.2, if_pos (by exact hs)]

end Sys2Proof.Requests
end

section
/-! SUPPORT. The work that follows an accepted request (R27, R75, R141, R145, R149): one lemma for each command of it, and
the statement about them. -/

namespace Sys2Proof.Requests
open Sys2Proof.Machine

/-! ### The work of CLOSING (R149) -/

theorem exec_poolSettled {s : State} (h : s.Running) :
    exec .poolSettled s = .next (if s.sup.mode = .closing then
      ((s.begin .poolSettled).setSup { s.sup with qualified := qualifies s.sup.engineRun s.sup.maxSpeed }).raiseAll
        [.managerRideEndEvent (qualifies s.sup.engineRun s.sup.maxSpeed), .suspectCount]
      else s.begin .poolSettled) := by
  change execPoolSettled s = _
  rw [execPoolSettled, State.takeUp_free h.1 h.2]
  rfl

/-- The faults counted are the defined ones that stand SUSPECT (R75). -/
theorem suspectFaults_eq (s : State) :
    s.suspectFaults = ((List.finRange 128).filter fun f =>
      decide ((s.faults[f]).defn ≠ none) && decide ((s.faults[f]).phase = .suspect)).length := by
  unfold State.suspectFaults
  congr 2
  funext f
  cases (s.faults[f]).defn <;> rfl

theorem exec_suspectCount {s : State} (h : s.Running) :
    exec .suspectCount s = .next
      { s with inFlight := s.inFlight.erase .suspectCount ++ if s.sup.aged = none then [] else [.closingComplete],
               stores := [], sup := { s.sup with suspects := some s.suspectFaults } } := by
  change execSuspectCount s = _
  rw [execSuspectCount, State.takeUp_free h.1 h.2]
  dsimp only
  rw [State.begin_sup]
  cases s.sup.aged with
  | none =>
    rw [if_neg nofun, if_pos rfl, List.append_nil]
    rfl
  | some n =>
    rw [Option.isSome_some, if_pos rfl, if_neg nofun]
    rfl

/-- With both counts in hand, in CLOSING, the mode becomes IDLE and the request completes. -/
theorem exec_closingComplete {s : State} (h : s.Running) {n m : Nat} (hmode : s.sup.mode = .closing)
    (ha : s.sup.aged = some n) (hs : s.sup.suspects = some m) :
    exec .closingComplete s = .next
      ((((s.begin .closingComplete).setSup { s.sup with aged := none, suspects := none }).changeMode .idle).complete .e
        accepted (BitVec.ofNat 16 (flag s.sup.qualified)) (BitVec.ofNat 16 n) (BitVec.ofNat 16 m)) := by
  change execClosingComplete s = _
  rw [execClosingComplete, State.takeUp_free h.1 h.2, State.begin_sup, ha, hs]
  dsimp only
  rw [if_pos hmode]

theorem closingComplete_idle {s : State} (h : s.Running)
    (hn : s.sup.mode ≠ .closing ∨ s.sup.aged = none ∨ s.sup.suspects = none) : ChangesNothing .closingComplete s := by
  change execClosingComplete s = _
  rw [execClosingComplete, State.takeUp_free h.1 h.2, State.begin_sup]
  split
  next n m ha hs =>
    have hm : s.sup.mode ≠ .closing := by
      rcases hn with hm | hn | hn
      · exact hm
      · exact absurd (hn.symm.trans ha) nofun
      · exact absurd (hn.symm.trans hs) nofun
    rw [if_neg hm]
  next => rfl

/-! ### The end of the build (R27) -/

/-- The third result word of TAKE DEFINITIONS: the lowest number of an invalid entry, or that there is none. -/
def lowestWord (k : TakeRun) : Word :=
  match k.lowestInvalid with
  | some f => BitVec.ofNat 16 f.val
  | none => 0x00FF

theorem exec_buildDone {s : State} (h : s.Running) {k : TakeRun} (hk : s.handler.take = some k)
    (hmode : s.sup.mode = .config) :
    exec .takeDefinitionsBuildDone s = .next
      ((((s.begin .takeDefinitionsBuildDone).setHandler { s.handler with take := none }).changeMode .idle).complete .e
        accepted (BitVec.ofNat 16 k.valid) (BitVec.ofNat 16 k.invalid) (lowestWord k)) := by
  change execTakeDefinitionsBuildDone s = _
  rw [execTakeDefinitionsBuildDone, State.takeUp_free h.1 h.2, State.begin_handler, hk]
  dsimp only
  rw [if_pos (by exact hmode)]
  rfl

theorem buildDone_idle {s : State} (h : s.Running) (hn : s.handler.take = none ∨ s.sup.mode ≠ .config) :
    ChangesNothing .takeDefinitionsBuildDone s := by
  change execTakeDefinitionsBuildDone s = _
  rw [execTakeDefinitionsBuildDone, State.takeUp_free h.1 h.2, State.begin_handler]
  rcases hn with hn | hn
  · rw [hn]
  · split
    · rw [if_neg (by exact hn)]
    · rfl

/-! ### The end of a START RIDE (R145) -/

/-- With a START RIDE that runs, START_RIDE waits for both parts of step 4 and then does step 5. -/
theorem exec_startRide_runs {s : State} (h : s.Running) {r : StartRun} (hr : s.handler.start = some r) :
    exec .startRide s = .next (if r.rings || r.lamps then s.begin .startRide else
      ((s.begin .startRide).setHandler { s.handler with start := none }).complete .e accepted s.sup.rideNumber 0 0) := by
  change execStartRide s = _
  rw [execStartRide, State.takeUp_free h.1 h.2, State.begin_handler, hr]
  rfl

/-- Settles O52: each command of the work is one of the lemmas above, and what a completion does is `ChangedAndCompleted`,
or, for step 5 of START RIDE, the completion alone. -/
theorem longRequestsComplete : Obligations.LongRequestsComplete := by
  intro s h
  dsimp only
  refine ⟨fun hm => ⟨_, exec_poolSettled h, ?_⟩, fun hm => ⟨?_, closingComplete_idle h (.inl hm)⟩,
    ⟨_, exec_suspectCount h, by rw [suspectFaults_eq], rfl⟩, fun n m hm ha hs => ⟨_, exec_closingComplete h hm ha hs, ?_⟩,
    fun hn => closingComplete_idle h (.inr hn), fun k hk hm => ⟨_, exec_buildDone h hk hm, ?_⟩, buildDone_idle h,
    fun r hr => ⟨fun hw => ?_, fun hrings hlamps => ⟨_, exec_startRide_runs h hr, ?_⟩⟩⟩
  · rw [if_pos hm]
    exact ⟨rfl, rfl⟩
  · rw [ChangesNothing, exec_poolSettled h, if_neg hm]
  · obtain ⟨hframe, hmode, hcompleted, hreach⟩ := changeMode_complete
      (u := (s.begin .closingComplete).setSup { s.sup with aged := none, suspects := none }) (m := .idle) nofun
      (fun hr => Mode.noConfusion (hm.symm.trans hr)) accepted (BitVec.ofNat 16 (flag s.sup.qualified))
      (BitVec.ofNat 16 n) (BitVec.ofNat 16 m)
    refine ⟨by rw [hframe]; rfl, hmode, ?_, hreach, by rw [Raises, hframe]; rfl⟩
    cases hq : s.sup.qualified <;> rw [hq] at hcompleted <;>
      exact completed_congr hcompleted rfl fun _ _ _ => rfl
  · obtain ⟨hframe, hmode, hcompleted, hreach⟩ := changeMode_complete
      (u := (s.begin .takeDefinitionsBuildDone).setHandler { s.handler with take := none }) (m := .idle) nofun
      (fun hr => Mode.noConfusion (hm.symm.trans hr)) accepted (BitVec.ofNat 16 k.valid) (BitVec.ofNat 16 k.invalid)
      (lowestWord k)
    exact ⟨by rw [hframe]; rfl, hmode, completed_congr hcompleted rfl fun _ _ _ => rfl, hreach,
      by rw [Raises, hframe]; rfl⟩
  · rw [ChangesNothing, exec_startRide_runs h hr, if_pos (by simpa using hw)]
  · rw [hrings, hlamps, Bool.or_false, if_neg Bool.false_ne_true]
    exact ⟨by rw [complete_frame]; rfl, completed_congr (complete_completed ..) rfl fun _ _ _ => rfl,
      fun a ha => complete_srrOnly _ _ _ _ _ _ a ha, by rw [Raises, complete_frame]; rfl⟩

end Sys2Proof.Requests
end

section
/-! SUPPORT. What rewriting a view does to the SRR (R14), and what an event does that passes over every fault or every
buffer: the entries or buffers after it, their views, the events raised, and how far it reaches (R28, R52, R73, R86, R103). -/

namespace Sys2Proof.Requests
open Sys2Proof.Machine

/-! ### Words written in order -/

theorem readRange_congr {m m' : Mem} {a n : Nat} (h : ∀ b, a ≤ b → b < a + n → m.read b = m'.read b) :
    m.readRange a n = m'.readRange a n := by
  refine List.map_congr_left fun i hi => h _ (Nat.le_add_right ..) ?_
  have := List.mem_range.1 hi
  omega

/-- A run of words reads back as it was written. -/
theorem readRange_writeAll_wordsAt (m : Mem) (a : Nat) (ws : List Word) :
    (m.writeAll (wordsAt a ws)).readRange a ws.length = ws := by
  refine List.ext_getElem (by simp [Mem.readRange]) fun i hi hi' => ?_
  simp only [Mem.readRange, List.getElem_map, List.getElem_range]
  exact Mem.read_writeAll_wordsAt m a ws i hi'

/-- A rewrite stores the words between two counts of the change counter (R14). -/
theorem rewrite_srr (s : State) {c : Nat} {ws : List (Nat × Word)} (h : ∀ w ∈ ws, w.1 ≠ c) :
    (s.rewrite c ws).srr =
      ((s.srr.write c (s.srr.read c + 1)).writeAll ws).write c (s.srr.read c + 2) := by
  have hc : ((s.srr.write c (s.srr.read c + 1)).writeAll ws).read c = s.srr.read c + 1 := by
    rw [Mem.read_writeAll_other h, Mem.read_write_same]
  rw [State.rewrite_eq, State.putAll_srr, Mem.writeAll_append, hc, Mem.writeAll_cons, Mem.writeAll_cons,
    Mem.writeAll_nil, BitVec.add_assoc]
  rfl

theorem rewrite_counter (s : State) {c : Nat} {ws : List (Nat × Word)} (h : ∀ w ∈ ws, w.1 ≠ c) :
    (s.rewrite c ws).srr.read c = s.srr.read c + 2 := by
  rw [rewrite_srr s h, Mem.read_write_same]

/-- A rewrite reaches its words and its counter. -/
theorem rewrite_reach (s : State) (c : Nat) (ws : List (Nat × Word)) :
    SrrOnly s (s.rewrite c ws) fun a => a = c ∨ ∃ w ∈ ws, w.1 = a := by
  intro a ha
  rw [State.rewrite_eq, State.putAll_srr, Mem.read_writeAll_other]
  intro w hw hwa
  simp only [List.cons_append, List.mem_cons, List.mem_append, List.not_mem_nil, or_false] at hw
  rcases hw with rfl | hw | rfl
  · exact ha (.inl hwa.symm)
  · exact ha (.inr ⟨w, hw, hwa⟩)
  · exact ha (.inl hwa.symm)

/-- The words of a view that a rewrite has stored read back, the counter standing apart. -/
theorem rewrite_words (s : State) {c a : Nat} {ws : List Word} (h : c < a ∨ a + ws.length ≤ c) :
    (s.rewrite c (wordsAt a ws)).srr.readRange a ws.length = ws := by
  have hc : ∀ w ∈ wordsAt a ws, w.1 ≠ c := fun w hw => by
    have := mem_wordsAt hw
    omega
  calc (s.rewrite c (wordsAt a ws)).srr.readRange a ws.length
    _ = ((s.srr.write c (s.srr.read c + 1)).writeAll (wordsAt a ws)).readRange a ws.length := by
        rw [rewrite_srr s hc]
        exact readRange_congr fun b _ _ => Mem.read_write_other _ _ (by omega)
    _ = ws := readRange_writeAll_wordsAt ..

/-! ### Frame headers and records (R18, R19) -/

theorem headerWords_length (o : Option Capture) : (headerWords o).length = 7 := by cases o <;> rfl

theorem publishHeader_rewritten (s : State) (b : BufNo) : HeaderRewritten s (s.publishHeader b) b := by
  have hlen := headerWords_length s.pool[b]
  refine ⟨?_, rewrite_counter s fun w hw => ?_⟩
  · rw [State.publishHeader_pool, ← hlen]
    exact rewrite_words s (.inr (by omega))
  · have := mem_wordsAt hw
    omega

theorem publishHeader_reach (s : State) (b : BufNo) : SrrOnly s (s.publishHeader b) (inHeader b) := by
  refine srrOnly_mono (rewrite_reach s _ _) fun a ha => ?_
  have hlen := headerWords_length s.pool[b]
  rcases ha with rfl | ⟨w, hw, rfl⟩
  · exact ⟨by omega, by omega⟩
  · have := mem_wordsAt hw
    exact ⟨by omega, by omega⟩

/-! ### Entries of vectors -/

theorem getElem_set {α : Type} {n : Nat} (v : Vector α n) (i j : Fin n) (x : α) :
    (v.set i x)[j] = if j = i then x else v[j] := by
  rw [Fin.getElem_fin, Vector.getElem_set]
  simp only [Fin.ext_iff, eq_comm, Fin.getElem_fin]

theorem set_getElem {α : Type} {n : Nat} (v : Vector α n) (i : Fin n) : v.set i v[i] = v := Vector.set_getElem_self ..

/-! ### Fault entries (R52) -/

theorem inFaultView_inj {f g : FaultNo} {a : Nat} (hf : inFaultView f a) (hg : inFaultView g a) : f = g := by
  unfold inFaultView faultView at hf hg
  exact Fin.ext (by omega)

/-- The views of both states decide whether a view has been kept. -/
theorem faultViewKept_congr {s s' t t' : State} {f : FaultNo} (h : FaultViewKept s t f)
    (hs : s'.faults[f] = s.faults[f]) (ht : t'.faults[f] = t.faults[f])
    (hsr : ∀ a, inFaultView f a → s'.srr.read a = s.srr.read a)
    (htr : ∀ a, inFaultView f a → t'.srr.read a = t.srr.read a) : FaultViewKept s' t' f := by
  have hin : ∀ i < 4, inFaultView f (faultView f + i) := fun i hi => ⟨Nat.le_add_right .., by omega⟩
  obtain ⟨hkept, hrewritten⟩ := h
  rw [FaultViewKept, hs, ht]
  refine ⟨fun he a ha => ?_, fun hne => ?_⟩
  · rw [htr a ha, hsr a ha, hkept he a ha]
  · obtain ⟨h0, h1, h2, h3⟩ := hrewritten hne
    rw [FaultRewritten, ht, hsr _ (hin 3 (by decide)),
      htr _ (show inFaultView f (faultView f) from hin 0 (by decide)), htr _ (hin 1 (by decide)),
      htr _ (hin 2 (by decide)), htr _ (hin 3 (by decide))]
    exact ⟨h0, h1, h2, h3⟩

theorem updateFault_viewKept (s : State) (f : FaultNo) (e : FaultEntry) :
    FaultViewKept s (s.updateFault f e) f := by
  have he : (s.updateFault f e).faults[f] = e := by rw [State.updateFault_faults, getElem_set, if_pos rfl]
  rw [FaultViewKept, he]
  rcases s.updateFault_cases f e with ⟨hp, hu⟩ | ⟨hp, hu⟩
  · exact ⟨fun _ a _ => by rw [hu]; rfl, fun h => absurd hp h⟩
  · refine ⟨fun h => absurd h hp, fun _ => ?_⟩
    rw [FaultRewritten, he, hu, State.publishFault_eq]
    have he' : (s.setFault f e).faults[f] = e := by rw [State.setFault_faults, getElem_set, if_pos rfl]
    simp only [he', State.putAll_srr, Mem.writeAll_cons, Mem.writeAll_nil, Mem.read_write, State.setFault_srr]
    simp

/-- One entry taken over by `g`, with the events `ev` of the entry as it stood. -/
def mapEntry (g : FaultEntry → FaultEntry) (ev : FaultNo → FaultEntry → List Instr) (s : State) (f : FaultNo) : State :=
  (s.updateFault f (g s.faults[f])).raiseAll (ev f s.faults[f])

/-- What an event comes to that takes the entries of the faults `l` over by `g`, raising the events `ev` of each. -/
structure EntriesMapped (g : FaultEntry → FaultEntry) (ev : FaultNo → FaultEntry → List Instr) (l : List FaultNo)
    (s t : State) : Prop where
  frame : t = { s with faults := t.faults, srr := t.srr, stores := t.stores,
                       inFlight := s.inFlight ++ l.flatMap fun f => ev f s.faults[f] }
  entry : ∀ f : FaultNo, t.faults[f] = if f ∈ l then g s.faults[f] else s.faults[f]
  view  : ∀ f : FaultNo, FaultViewKept s t f
  reach : SrrOnly s t fun a => ∃ f ∈ l, inFaultView f a

theorem mapEntry_frame (g : FaultEntry → FaultEntry) (ev : FaultNo → FaultEntry → List Instr) (s : State) (f : FaultNo) :
    mapEntry g ev s f =
      { s with faults := s.faults.set f (g s.faults[f]), srr := (mapEntry g ev s f).srr,
               stores := (mapEntry g ev s f).stores, inFlight := s.inFlight ++ ev f s.faults[f] } := by
  unfold mapEntry
  rw [State.updateFault_frame]
  rfl

theorem mapEntry_reach (g : FaultEntry → FaultEntry) (ev : FaultNo → FaultEntry → List Instr) (s : State) (f : FaultNo) :
    SrrOnly s (mapEntry g ev s f) (inFaultView f) := fun a ha => s.updateFault_read f _ a ha

theorem mapEntry_faults (g : FaultEntry → FaultEntry) (ev : FaultNo → FaultEntry → List Instr) (s : State)
    (f f' : FaultNo) : (mapEntry g ev s f).faults[f'] = if f' = f then g s.faults[f] else s.faults[f'] := by
  rw [mapEntry_frame]
  exact getElem_set ..

theorem foldl_mapEntry (g : FaultEntry → FaultEntry) (ev : FaultNo → FaultEntry → List Instr) {l : List FaultNo}
    (hl : l.Nodup) (s : State) : EntriesMapped g ev l s (l.foldl (mapEntry g ev) s) := by
  induction l generalizing s with
  | nil => exact ⟨by simp, fun f => rfl, fun f => ⟨fun _ _ _ => rfl, fun h => absurd rfl h⟩, fun _ _ => rfl⟩
  | cons f l ih =>
    obtain ⟨hf, hl⟩ := List.nodup_cons.1 hl
    obtain ⟨hframe, hentry, hview, hreach⟩ := ih hl (mapEntry g ev s f)
    rw [List.foldl_cons]
    generalize l.foldl (mapEntry g ev) (mapEntry g ev s f) = t at hframe hentry hview hreach
    have hother : ∀ f', f' ≠ f → (mapEntry g ev s f).faults[f'] = s.faults[f'] := fun f' h => by
      rw [mapEntry_faults, if_neg h]
    refine ⟨?_, fun f' => ?_, fun f' => ?_, ?_⟩
    · have hev : (l.flatMap fun f' => ev f' (mapEntry g ev s f).faults[f']) = l.flatMap fun f' => ev f' s.faults[f'] :=
        List.flatMap_congr fun f' h => by rw [hother f' fun he => hf (he ▸ h)]
      rw [hframe, hev, mapEntry_frame, List.flatMap_cons, List.append_assoc]
    · rw [hentry]
      by_cases he : f' = f
      · subst he
        rw [if_neg hf, if_pos (List.mem_cons_self ..), mapEntry_faults, if_pos rfl]
      · simp only [List.mem_cons, he, false_or, hother f' he]
    · by_cases he : f' = f
      · subst he
        refine faultViewKept_congr (updateFault_viewKept s f' (g s.faults[f'])) rfl ?_ (fun _ _ => rfl) fun a ha => ?_
        · rw [hentry, if_neg hf]
          rfl
        · exact hreach a fun ⟨f'', hmem, ha'⟩ => hf (inFaultView_inj ha ha' ▸ hmem)
      · exact faultViewKept_congr (hview f') (hother f' he).symm rfl
          (fun a ha => (mapEntry_reach g ev s f a fun ha' => he (inFaultView_inj ha ha')).symm) fun _ _ => rfl
    · refine srrOnly_mono (srrOnly_trans (mapEntry_reach g ev s f) hreach) fun a ha => ?_
      rcases ha with ha | ⟨f', hmem, ha⟩
      · exact ⟨f, List.mem_cons_self .., ha⟩
      · exact ⟨f', List.mem_cons_of_mem _ hmem, ha⟩

/-! ### The release of provisional captures (R103) -/

/-- A buffer that a provisional capture holds. -/
def Provisional (o : Option Capture) : Prop := ∃ c, o = some c ∧ c.holder = .provisional

/-- The notice of a provisional capture that is freed. -/
def releaseNotice (s : State) (b : BufNo) : Option Instr :=
  match s.pool[b] with
  | some c => if c.holder = .provisional then some (.captureReleased c.fault b c.episode) else none
  | none => none

/-- One buffer of the release. -/
def releaseBuffer (s : State) (b : BufNo) : State :=
  match s.pool[b] with
  | some c =>
    if decide (c.holder = .provisional) then (s.freeBuffer b).raise (.captureReleased c.fault b c.episode) else s
  | none => s

theorem releaseProvisional_eq (s : State) : s.releaseProvisional = (List.finRange 24).foldl releaseBuffer s := rfl

theorem provisionalReleases_eq (s : State) : provisionalReleases s = (List.finRange 24).filterMap (releaseNotice s) := rfl

/-- A buffer is freed with its notice where a provisional capture holds it, and left alone elsewhere. -/
theorem releaseBuffer_cases (s : State) (b : BufNo) :
    (∃ e, Provisional s.pool[b] ∧ releaseNotice s b = some e ∧ releaseBuffer s b = (s.freeBuffer b).raise e) ∨
    (¬ Provisional s.pool[b] ∧ releaseNotice s b = none ∧ releaseBuffer s b = s) := by
  unfold Provisional releaseNotice releaseBuffer
  cases s.pool[b] with
  | none => exact .inr ⟨nofun, rfl, rfl⟩
  | some c =>
    by_cases h : c.holder = .provisional
    · exact .inl ⟨_, ⟨c, rfl, h⟩, if_pos h, if_pos (decide_eq_true h)⟩
    · refine .inr ⟨?_, if_neg h, if_neg (by simpa using h)⟩
      rintro ⟨c', hc, h'⟩
      exact h (Option.some.inj hc ▸ h')

/-- What the release comes to on the buffers `l`. -/
structure Released (l : List BufNo) (s t : State) : Prop where
  frame  : t = { s with pool := t.pool, srr := t.srr, stores := t.stores,
                        inFlight := s.inFlight ++ l.filterMap (releaseNotice s) }
  freed  : ∀ b ∈ l, Provisional s.pool[b] → t.pool[b] = none ∧ HeaderRewritten s t b
  others : ∀ b : BufNo, b ∉ l ∨ ¬ Provisional s.pool[b] → t.pool[b] = s.pool[b]
  reach  : SrrOnly s t fun a => ∃ b ∈ l, Provisional s.pool[b] ∧ inHeader b a

theorem inHeader_inj {b b' : BufNo} {a : Nat} (h : inHeader b a) (h' : inHeader b' a) : b = b' := by
  unfold inHeader bufferBase at h h'
  exact Fin.ext (by omega)

/-- The header and the buffer decide whether a header has been rewritten. -/
theorem headerRewritten_congr {s s' t t' : State} {b : BufNo} (h : HeaderRewritten s t b)
    (hpool : t'.pool[b] = t.pool[b]) (hs : ∀ a, inHeader b a → s'.srr.read a = s.srr.read a)
    (ht : ∀ a, inHeader b a → t'.srr.read a = t.srr.read a) : HeaderRewritten s' t' b := by
  obtain ⟨hwords, hcount⟩ := h
  have hc : inHeader b (bufferBase b + 7) := ⟨by omega, by omega⟩
  refine ⟨?_, by rw [ht _ hc, hs _ hc, hcount]⟩
  rw [hpool, ← hwords]
  exact readRange_congr fun a h1 h2 => ht a ⟨h1, by omega⟩

theorem freeBuffer_pool (s : State) (b b' : BufNo) :
    (s.freeBuffer b).pool[b'] = if b' = b then none else s.pool[b'] := by
  rw [State.freeBuffer_frame]
  exact getElem_set ..

theorem foldl_releaseBuffer {l : List BufNo} (hl : l.Nodup) (s : State) :
    Released l s (l.foldl releaseBuffer s) := by
  induction l generalizing s with
  | nil => exact ⟨by simp, nofun, fun _ _ => rfl, fun _ _ => rfl⟩
  | cons b l ih =>
    obtain ⟨hb, hl⟩ := List.nodup_cons.1 hl
    obtain ⟨hframe, hfreed, hothers, hreach⟩ := ih hl (releaseBuffer s b)
    rw [List.foldl_cons]
    generalize l.foldl releaseBuffer (releaseBuffer s b) = t at hframe hfreed hothers hreach
    rcases releaseBuffer_cases s b with ⟨e, hprov, hnotice, heq⟩ | ⟨hprov, hnotice, heq⟩
    · rw [heq] at hframe hfreed hothers hreach
      have hstay : ∀ b', b' ≠ b → ((s.freeBuffer b).raise e).pool[b'] = s.pool[b'] := fun b' h => by
        rw [State.raise_pool, freeBuffer_pool, if_neg h]
      have hfree : ((s.freeBuffer b).raise e).pool[b] = none := by rw [State.raise_pool, freeBuffer_pool, if_pos rfl]
      have hne : ∀ b' ∈ l, b' ≠ b := fun b' h he => hb (he ▸ h)
      have hfar : ∀ b' ≠ b, ∀ a, inHeader b' a → s.srr.read a = ((s.freeBuffer b).raise e).srr.read a :=
        fun b' hb' a ha => ((publishHeader_reach (s.setBuffer b none) b a) fun ha' => hb' (inHeader_inj ha ha')).symm
      refine ⟨?_, fun b' hmem h => ?_, fun b' h => ?_, ?_⟩
      · have hev : l.filterMap (releaseNotice ((s.freeBuffer b).raise e)) = l.filterMap (releaseNotice s) :=
          List.filterMap_congr fun b' h => by unfold releaseNotice; rw [hstay b' (hne b' h)]
        rw [hframe, hev, State.freeBuffer_frame, List.filterMap_cons_some hnotice]
        simp [State.raise]
      · rcases List.mem_cons.1 hmem with rfl | hmem
        · have hpool : t.pool[b'] = none := by rw [hothers b' (.inl hb), hfree]
          refine ⟨hpool, headerRewritten_congr (publishHeader_rewritten (s.setBuffer b' none) b') ?_ (fun _ _ => rfl)
            fun a ha => ?_⟩
          · exact hpool.trans hfree.symm
          · exact hreach a fun ⟨b'', hmem, _, ha'⟩ => hb (inHeader_inj ha ha' ▸ hmem)
        · obtain ⟨hpool, hhead⟩ := hfreed b' hmem (by rwa [hstay b' (hne b' hmem)])
          exact ⟨hpool, headerRewritten_congr hhead rfl (hfar b' (hne b' hmem)) fun _ _ => rfl⟩
      · have hb' : b' ≠ b := by
          rintro rfl
          exact h.elim (fun h => h (List.mem_cons_self ..)) fun h => h hprov
        rw [hothers b', hstay b' hb']
        rw [hstay b' hb']
        exact h.imp_left fun h hmem => h (List.mem_cons_of_mem _ hmem)
      · refine srrOnly_mono (srrOnly_trans (publishHeader_reach (s.setBuffer b none) b) hreach) fun a ha => ?_
        rcases ha with ha | ⟨b', hmem, h, ha⟩
        · exact ⟨b, List.mem_cons_self .., hprov, ha⟩
        · rw [hstay b' (hne b' hmem)] at h
          exact ⟨b', List.mem_cons_of_mem _ hmem, h, ha⟩
    · rw [heq] at hframe hfreed hothers hreach
      refine ⟨by rw [List.filterMap_cons_none hnotice]; exact hframe, fun b' hmem h => ?_, fun b' h => ?_, ?_⟩
      · rcases List.mem_cons.1 hmem with rfl | hmem
        · exact absurd h hprov
        · exact hfreed b' hmem h
      · exact hothers b' (h.imp_left fun h hmem => h (List.mem_cons_of_mem _ hmem))
      · exact srrOnly_mono hreach fun a ⟨b', hmem, h⟩ => ⟨b', List.mem_cons_of_mem _ hmem, h⟩

end Sys2Proof.Requests
end

section
/-! SUPPORT. Where the areas of the SRR lie, the level conditions (R42), and the emptying of both queues and rings by RETURN
TO CONFIG (R28, R83). -/

namespace Sys2Proof.Requests
open Sys2Proof.Machine

/-! ### Where the areas lie (R2 to R4, R17, R19) -/

/-- The words of a port's queue and ring that a change of mode or capacity may store. -/
def portWord (a : Nat) : Prop := ∃ p, a ∈ [aTop p, aBottom p, aOccupancy p, aHead p, aRingState p]

theorem portWord_bounds {a : Nat} (h : portWord a) : 0x180 ≤ a ∧ a < 0x200 := by
  obtain ⟨p, h⟩ := h
  cases p <;> simp [aTop, aBottom, aOccupancy, aHead, aRingState, controlBase] at h <;> omega

theorem requestWord_bounds {p : Port} {a : Nat} (h : requestWord p a) : 0x100 ≤ a ∧ a < 0x180 := by
  rw [requestWord_iff] at h
  cases p <;> simp only [serviceBase] at h <;> omega

theorem inFaultView_bounds {f : FaultNo} {a : Nat} (h : inFaultView f a) : 0x200 ≤ a ∧ a < 0x400 := by
  unfold inFaultView faultView at h
  omega

theorem inHeader_bounds {b : BufNo} {a : Nat} (h : inHeader b a) : 0x2800 ≤ a := by
  unfold inHeader bufferBase at h
  omega

theorem aMode_eq : aMode = 2 := rfl

/-! ### Level conditions (R42) -/

theorem almostFullHolds_eq (occupancy capacity : Nat) (level : Word) :
    almostFullHolds occupancy capacity level = decide (capacity ≤ occupancy + min level.toNat capacity) :=
  decide_eq_decide.2 (by rw [levelTaken]; omega)

/-- A queue with its two conditions evaluated from the level words. -/
def levelled (s : State) (p : Port) (q : Queue) : Queue :=
  { q with almostEmpty := almostEmptyHolds q.occupancy q.capacity (s.srr.read (aEmptyLevel p)),
           almostFull := almostFullHolds q.occupancy q.capacity (s.srr.read (aFullLevel p)) }

theorem setLevels_eq (s : State) (p : Port) : s.setLevels p = s.setQueue p (levelled s p (s.queues.get p)) := rfl

theorem levelled_congr {s s' : State} {p : Port} (he : s'.srr.read (aEmptyLevel p) = s.srr.read (aEmptyLevel p))
    (hf : s'.srr.read (aFullLevel p) = s.srr.read (aFullLevel p)) (q : Queue) : levelled s' p q = levelled s p q := by
  rw [levelled, levelled, he, hf]

theorem levelled_levelsHold (s : State) (p : Port) (q : Queue) : LevelsHold s p (levelled s p q) :=
  ⟨rfl, almostFullHolds_eq ..⟩

/-! ### The queues and rings (R28) -/

/-- Queue `p` emptied, its level conditions set from the level words. -/
def emptiedQueue (s : State) (p : Port) : Queue :=
  levelled s p { s.queues.get p with takenTop := 0, bottom := 0, occupancy := 0 }

/-- Ring `p` emptied and QUIET. -/
def quietRing (s : State) (p : Port) : Tracker :=
  { s.rings.get p with lastHead := 0, held := 0, state := .quiet, timer := none }

def quietReport (s : State) (p : Port) : List Instr :=
  if (s.rings.get p).state = .quiet then [] else [.ringStateReport p .quiet]

def queueWords (p : Port) : List Nat := [aTop p, aBottom p, aOccupancy p]

def ringWords (s : State) (p : Port) : List Nat := aHead p :: if (s.rings.get p).state = .quiet then [] else [aRingState p]

/-- The word 0 at each of the addresses. -/
def zeros (as : List Nat) : List (Nat × Word) := as.map fun a => (a, 0)

theorem read_writeAll_zeros (m : Mem) (as : List Nat) (a : Nat) :
    (m.writeAll (zeros as)).read a = if a ∈ as then 0 else m.read a := by
  induction as generalizing m with
  | nil => rfl
  | cons b as ih =>
    have hcons : zeros (b :: as) = (b, 0) :: zeros as := rfl
    rw [hcons, Mem.writeAll_cons, ih, Mem.read_write]
    by_cases h : a ∈ as <;> by_cases h' : a = b <;> simp [h, h']

theorem zeros_append (as bs : List Nat) : zeros (as ++ bs) = zeros as ++ zeros bs := List.map_append

theorem resetQueue_eq (s : State) (p : Port) :
    s.resetQueue p =
      { s with queues := s.queues.set p (emptiedQueue s p), srr := s.srr.writeAll (zeros (queueWords p)),
               stores := s.stores ++ zeros (queueWords p) } := by
  have hlevels : ∀ a ∈ [aEmptyLevel p, aFullLevel p],
      (s.srr.writeAll (zeros (queueWords p))).read a = s.srr.read a := fun a ha => by
    rw [read_writeAll_zeros, if_neg (by cases p <;> revert a <;> decide)]
  change ((s.setQueue p { s.queues.get p with takenTop := 0, bottom := 0, occupancy := 0 }).putAll
    (zeros (queueWords p))).setLevels p = _
  rw [setLevels_eq, State.putAll_eq, levelled_congr (s := s) (hlevels (aEmptyLevel p) (by simp))
    (hlevels (aFullLevel p) (by simp))]
  simp [State.setQueue, emptiedQueue]

theorem resetRing_eq (s : State) (p : Port) :
    s.resetRing p =
      { s with rings := s.rings.set p (quietRing s p), srr := s.srr.writeAll (zeros (ringWords s p)),
               stores := s.stores ++ zeros (ringWords s p), inFlight := s.inFlight ++ quietReport s p } := by
  unfold State.resetRing State.setRingState quietReport ringWords quietRing
  by_cases h : (s.rings.get p).state = .quiet <;>
    simp [h, State.setRing, State.put, State.raise, ringStateCode, zeros]

def emptyPorts (s : State) : State := (((s.resetQueue .e).resetQueue .a).resetRing .e).resetRing .a

/-- The words that the emptying of both ports stores. -/
def emptiedWords (s : State) : List Nat := queueWords .e ++ queueWords .a ++ ringWords s .e ++ ringWords s .a

/-- The emptying of both queues and rings, whole. -/
theorem emptyPorts_eq (s : State) :
    emptyPorts s =
      { s with queues := { e := emptiedQueue s .e, a := emptiedQueue s .a },
               rings := { e := quietRing s .e, a := quietRing s .a },
               srr := s.srr.writeAll (zeros (emptiedWords s)), stores := (emptyPorts s).stores,
               inFlight := s.inFlight ++ (quietReport s .e ++ quietReport s .a) } := by
  have ha : emptiedQueue (s.resetQueue .e) .a = emptiedQueue s .a := by
    rw [resetQueue_eq]
    refine levelled_congr ?_ ?_ _ <;> exact (read_writeAll_zeros ..).trans (if_neg (by decide))
  unfold emptyPorts
  rw [resetRing_eq, resetRing_eq, resetQueue_eq (s.resetQueue .e), ha, resetQueue_eq]
  simp only [emptiedWords, zeros_append, Mem.writeAll_append, List.append_assoc]
  rfl

theorem mem_emptiedWords {s : State} {a : Nat} :
    a ∈ emptiedWords s ↔
      ∃ p, a ∈ queueWords p ∨ a = aHead p ∨ (a = aRingState p ∧ (s.rings.get p).state ≠ .quiet) := by
  have hring : ∀ p, a ∈ ringWords s p ↔ a = aHead p ∨ (a = aRingState p ∧ (s.rings.get p).state ≠ .quiet) := fun p => by
    unfold ringWords
    by_cases h : (s.rings.get p).state = .quiet <;> simp [h]
  simp only [emptiedWords, List.mem_append, hring]
  constructor
  · rintro (((h | h) | h) | h)
    exacts [⟨.e, .inl h⟩, ⟨.a, .inl h⟩, ⟨.e, .inr h⟩, ⟨.a, .inr h⟩]
  · rintro ⟨p, h⟩
    cases p <;> tauto

theorem emptyPorts_read (s : State) (a : Nat) :
    (emptyPorts s).srr.read a = if a ∈ emptiedWords s then 0 else s.srr.read a := by
  rw [emptyPorts_eq]
  exact read_writeAll_zeros ..

theorem emptyPorts_reach (s : State) : SrrOnly s (emptyPorts s) portWord := fun a ha => by
  rw [emptyPorts_read, if_neg]
  rw [mem_emptiedWords]
  rintro ⟨p, h⟩
  refine ha ⟨p, ?_⟩
  simp only [queueWords, List.mem_cons, List.not_mem_nil, or_false] at h ⊢
  tauto

theorem emptyPorts_zero (s : State) (p : Port) {a : Nat} (h : a ∈ [aTop p, aBottom p, aOccupancy p, aHead p]) :
    (emptyPorts s).srr.read a = 0 := by
  rw [emptyPorts_read, if_pos]
  refine mem_emptiedWords.2 ⟨p, ?_⟩
  simp only [queueWords, List.mem_cons, List.not_mem_nil, or_false] at h ⊢
  tauto

/-- A ring's state word is stored where the ring was not QUIET (R83). -/
theorem emptyPorts_ringState (s : State) (p : Port) :
    (emptyPorts s).srr.read (aRingState p) =
      if (s.rings.get p).state = .quiet then s.srr.read (aRingState p) else 0 := by
  have hmem : aRingState p ∈ emptiedWords s ↔ (s.rings.get p).state ≠ .quiet := by
    rw [mem_emptiedWords]
    constructor
    · rintro ⟨p', h | h | ⟨h, h'⟩⟩
      · exact absurd h (by cases p <;> cases p' <;> decide)
      · exact absurd h (by cases p <;> cases p' <;> decide)
      · have hp : p = p' := by
          revert h
          cases p <;> cases p' <;> decide
        exact hp ▸ h'
    · exact fun h => ⟨p, .inr (.inr ⟨rfl, h⟩)⟩
  rw [emptyPorts_read]
  by_cases h : (s.rings.get p).state = .quiet <;> simp only [hmem, h, ne_eq, not_true, not_false_iff, if_true, if_false]

end Sys2Proof.Requests
end

section
/-! SUPPORT. RETURN TO CONFIG as a chain of its four parts, and what the whole comes to (R28, R69, R103). -/

namespace Sys2Proof.Requests
open Sys2Proof.Machine

/-- The demand notice of an entry that becomes UNDEFINED (R69). -/
def undefinedNotice (f : FaultNo) (e : FaultEntry) : List Instr :=
  match e.defn with
  | some d => if d.lamp ≠ .none then [.demandNotice f] else []
  | none => []

theorem undefineEntry_eq : State.undefineEntry = mapEntry FaultEntry.undefined undefinedNotice := rfl

/-- The same notice as an option, as a fault with a lamp has it. -/
def undefinedDemand (f : FaultNo) (e : FaultEntry) : Option Instr :=
  match e.defn with
  | some d => if d.lamp = .none then none else some (.demandNotice f)
  | none => none

theorem undefinedNotice_eq (f : FaultNo) (e : FaultEntry) : undefinedNotice f e = (undefinedDemand f e).toList := by
  unfold undefinedNotice undefinedDemand
  cases e.defn with
  | none => rfl
  | some d => by_cases h : d.lamp = .none <;> simp [h]

/-- The demand notices of all faults, in order. -/
theorem flatMap_undefinedNotice (s : State) :
    ((List.finRange 128).flatMap fun f => undefinedNotice f s.faults[f]) =
      (List.finRange 128).filterMap fun f => undefinedDemand f s.faults[f] := by
  rw [List.filterMap_eq_flatMap_toList]
  exact List.flatMap_congr fun f _ => undefinedNotice_eq f _

/-- RETURN TO CONFIG in IDLE from `s` to `t`: the entries undefined, the captures released, the queues and rings emptied, and
the mode changed and the request completed. -/
structure ReturnRun (s t1 t2 t : State) : Prop where
  entries  : EntriesMapped FaultEntry.undefined undefinedNotice (List.finRange 128) (s.begin .returnToConfig) t1
  released : Released (List.finRange 24) t1 t2
  done     : ChangedAndCompleted (emptyPorts t2) t .config 0 0 0 0

theorem exec_returnToConfig {s : State} (h : s.Running) (hm : s.sup.mode = .idle) :
    ∃ t1 t2 t, exec .returnToConfig s = .next t ∧ ReturnRun s t1 t2 t := by
  have hentries := foldl_mapEntry FaultEntry.undefined undefinedNotice (List.nodup_finRange 128) (s.begin .returnToConfig)
  generalize ht1 : (List.finRange 128).foldl (mapEntry FaultEntry.undefined undefinedNotice) (s.begin .returnToConfig) = t1
    at hentries
  have hreleased := foldl_releaseBuffer (List.nodup_finRange 24) t1
  generalize ht2 : (List.finRange 24).foldl releaseBuffer t1 = t2 at hreleased
  have hmode : (emptyPorts t2).sup.mode = .idle := by
    rw [emptyPorts_eq, hreleased.frame, hentries.frame]
    exact hm
  refine ⟨t1, t2, _, ?_, hentries, hreleased,
    changeMode_complete (m := .config) nofun (fun hr => Mode.noConfusion (hmode.symm.trans hr)) 0 0 0 0⟩
  change execReturnToConfig s = _
  rw [execReturnToConfig, State.takeUp_free h.1 h.2, if_neg (by simp [hm]), undefineEntry_eq, ht1,
    releaseProvisional_eq, ht2]
  rfl

/-- What a buffer holds after the release. -/
def afterRelease (o : Option Capture) : Option Capture :=
  match o with
  | some c => if c.holder = .provisional then none else some c
  | none => none

section Chain
variable {s t1 t2 t : State} (r : ReturnRun s t1 t2 t)
include r

theorem returnRun_pool : t1.pool = s.pool := by
  rw [r.entries.frame]
  rfl

theorem returnRun_faults : t.faults = t1.faults := by
  rw [r.done.frame, emptyPorts_eq, r.released.frame]

theorem returnRun_queues : t2.queues = s.queues := by
  rw [r.released.frame, r.entries.frame]
  rfl

theorem returnRun_rings : t2.rings = s.rings := by
  rw [r.released.frame, r.entries.frame]
  rfl

theorem returnRun_frame :
    t = { s with inFlight := t.inFlight, stores := t.stores, srr := t.srr, queues := t.queues, rings := t.rings,
                 faults := t.faults, pool := t.pool, sup := { s.sup with mode := .config },
                 handler := { s.handler with fdtLocked := false, orphan := s.handler.orphan.set .e false } } := by
  rw [r.done.frame, emptyPorts_eq, r.released.frame, r.entries.frame]
  rfl

/-- How far the parts before the change of mode reach. -/
theorem returnRun_reach_before :
    SrrOnly s (emptyPorts t2) fun a =>
      (∃ f, inFaultView f a) ∨ (∃ b c, s.pool[b] = some c ∧ c.holder = .provisional ∧ inHeader b a) ∨ portWord a := by
  refine srrOnly_mono (srrOnly_trans (srrOnly_trans r.entries.reach r.released.reach) (emptyPorts_reach t2))
    fun a ha => ?_
  rcases ha with (⟨f, _, ha⟩ | ⟨b, _, ⟨c, hc, hp⟩, ha⟩) | ha
  · exact .inl ⟨f, ha⟩
  · rw [returnRun_pool r] at hc
    exact .inr (.inl ⟨b, c, hc, hp, ha⟩)
  · exact .inr (.inr ha)

/-- No part before the change of mode stores a word of a request block. -/
theorem returnRun_read_request {a : Nat} (ha : requestWord .e a) : (emptyPorts t2).srr.read a = s.srr.read a := by
  have hb := requestWord_bounds ha
  refine returnRun_reach_before r a ?_
  rintro (⟨f, h⟩ | ⟨b, c, _, _, h⟩ | h)
  · have := inFaultView_bounds h
    omega
  · have := inHeader_bounds h
    omega
  · have := portWord_bounds h
    omega

theorem returnRun_reach :
    SrrOnly s t fun a => a = aMode ∨ requestWord .e a ∨ (∃ f, inFaultView f a) ∨
      (∃ b c, s.pool[b] = some c ∧ c.holder = .provisional ∧ inHeader b a) ∨ portWord a := by
  refine srrOnly_mono (srrOnly_trans (returnRun_reach_before r) r.done.reach) fun a ha => ?_
  rcases ha with (ha | ha | ha) | ha | ha
  exacts [.inr (.inr (.inl ha)), .inr (.inr (.inr (.inl ha))), .inr (.inr (.inr (.inr ha))), .inl ha, .inr (.inl ha)]

/-- What the parts after the entries store lies in no fault's view. -/
theorem returnRun_read_view {f : FaultNo} {a : Nat} (ha : inFaultView f a) : t.srr.read a = t1.srr.read a := by
  have hb := inFaultView_bounds ha
  refine srrOnly_trans (srrOnly_trans r.released.reach (emptyPorts_reach t2)) r.done.reach a ?_
  rintro ((⟨b, _, _, h⟩ | h) | rfl | h)
  · have := inHeader_bounds h
    omega
  · have := portWord_bounds h
    omega
  · rw [aMode_eq] at hb
    omega
  · have := requestWord_bounds h
    omega

theorem returnRun_entry (f : FaultNo) :
    t.faults[f] = { FaultEntry.reset with episode := (s.faults[f]).episode } ∧ FaultViewKept s t f := by
  have hf : t.faults[f] = t1.faults[f] := by rw [returnRun_faults r]
  refine ⟨?_, faultViewKept_congr (r.entries.view f) rfl hf (fun _ _ => rfl) fun a ha => returnRun_read_view r ha⟩
  rw [hf, r.entries.entry, if_pos (List.mem_finRange f)]
  rfl

/-- What the parts after the release store lies in no header. -/
theorem returnRun_read_header {b : BufNo} {a : Nat} (ha : inHeader b a) : t.srr.read a = t2.srr.read a := by
  have hb := inHeader_bounds ha
  refine srrOnly_trans (emptyPorts_reach t2) r.done.reach a ?_
  rintro (h | rfl | h)
  · have := portWord_bounds h
    omega
  · rw [aMode_eq] at hb
    omega
  · have := requestWord_bounds h
    omega

theorem returnRun_pool_end : t.pool = t2.pool := by
  rw [r.done.frame, emptyPorts_eq]

theorem returnRun_buffer (b : BufNo) : t.pool[b] = afterRelease s.pool[b] := by
  have hpool : t1.pool[b] = s.pool[b] := by rw [returnRun_pool r]
  have hkeeps : ¬ Provisional s.pool[b] → t.pool[b] = s.pool[b] := fun h => by
    rw [returnRun_pool_end r, r.released.others b (.inr (by rwa [hpool])), hpool]
  cases hc : s.pool[b] with
  | none => exact (hkeeps (by rw [hc]; exact nofun)).trans hc
  | some c =>
    by_cases hp : c.holder = .provisional
    · have hfree := (r.released.freed b (List.mem_finRange b) (by rw [hpool, hc]; exact ⟨c, rfl, hp⟩)).1
      rw [returnRun_pool_end r, hfree, afterRelease, if_pos hp]
    · rw [afterRelease, if_neg hp]
      refine (hkeeps ?_).trans hc
      rw [hc]
      rintro ⟨c', hc', hp'⟩
      exact hp (Option.some.inj hc' ▸ hp')

theorem returnRun_header {b : BufNo} {c : Capture} (hc : s.pool[b] = some c) (hp : c.holder = .provisional) :
    HeaderRewritten s t b := by
  have hpool : Provisional t1.pool[b] := ⟨c, by rw [returnRun_pool r, hc], hp⟩
  refine headerRewritten_congr (r.released.freed b (List.mem_finRange b) hpool).2 (by rw [returnRun_pool_end r])
    (fun a ha => ?_) fun a ha => returnRun_read_header r ha
  refine (r.entries.reach a ?_).symm
  rintro ⟨f, _, h⟩
  have := inFaultView_bounds h
  have := inHeader_bounds ha
  omega

/-- The level words, and the words of the queues and rings that an emptying leaves alone, are those from before. -/
theorem returnRun_read_low {a : Nat} (ha : a < 0x200) : t2.srr.read a = s.srr.read a := by
  refine srrOnly_trans r.entries.reach r.released.reach a ?_
  rintro (⟨f, _, h⟩ | ⟨b, _, _, h⟩)
  · have := inFaultView_bounds h
    omega
  · have := inHeader_bounds h
    omega

theorem returnRun_read_port {a : Nat} (ha : 0x180 ≤ a) : t.srr.read a = (emptyPorts t2).srr.read a := by
  refine r.done.reach a ?_
  rintro (rfl | h)
  · rw [aMode_eq] at ha
    omega
  · have := requestWord_bounds h
    omega

theorem returnRun_raises :
    Raises .returnToConfig s t
      ((List.finRange 128).flatMap (fun f => undefinedNotice f s.faults[f]) ++ provisionalReleases s ++
        quietReport s .e ++ quietReport s .a ++ [.modeNotice] ++ completionEvents s .e) := by
  have horphan : (emptyPorts t2).handler.orphan = s.handler.orphan := by
    rw [emptyPorts_eq, r.released.frame, r.entries.frame]
    rfl
  have hcompletion : completionEvents (emptyPorts t2) .e = completionEvents s .e :=
    completionEvents_congr horphan fun _ => returnRun_read_request r (List.mem_cons_self ..)
  have hreport : ∀ p, quietReport t2 p = quietReport s p := fun p => by
    rw [quietReport, returnRun_rings r, quietReport]
  have hreleases : (List.finRange 24).filterMap (releaseNotice t1) = provisionalReleases s := by
    rw [provisionalReleases_eq]
    exact List.filterMap_congr fun b _ => by rw [releaseNotice, returnRun_pool r, releaseNotice]
  rw [Raises, r.done.frame, hcompletion, emptyPorts_eq, hreport, hreport, r.released.frame, hreleases, r.entries.frame]
  simp only [List.append_assoc, List.cons_append, List.nil_append]
  rfl

theorem returnRun_completed : Completed s t .e 0 0 0 0 :=
  completed_congr r.done.completed (by rw [emptyPorts_eq, r.released.frame, r.entries.frame]; rfl)
    fun _ _ ha => returnRun_read_request r ha

theorem returnRun_queue (p : Port) : t.queues.get p = emptiedQueue s p := by
  have hqueues : t.queues = { e := emptiedQueue t2 .e, a := emptiedQueue t2 .a } := by
    rw [r.done.frame, emptyPorts_eq]
  have hlow : aEmptyLevel p < 0x200 ∧ aFullLevel p < 0x200 := by cases p <;> decide
  have hq : emptiedQueue t2 p = emptiedQueue s p := by
    unfold emptiedQueue
    rw [returnRun_queues r]
    exact levelled_congr (returnRun_read_low r hlow.1) (returnRun_read_low r hlow.2) _
  rw [hqueues, ← hq]
  cases p <;> rfl

theorem returnRun_ring (p : Port) : t.rings.get p = quietRing s p := by
  have hrings : t.rings = { e := quietRing t2 .e, a := quietRing t2 .a } := by
    rw [r.done.frame, emptyPorts_eq]
  have hr : quietRing t2 p = quietRing s p := by rw [quietRing, returnRun_rings r, quietRing]
  rw [hrings, ← hr]
  cases p <;> rfl

theorem returnRun_zero (p : Port) {a : Nat} (h : a ∈ [aTop p, aBottom p, aOccupancy p, aHead p]) :
    t.srr.read a = 0 := by
  have ha : 0x180 ≤ a := by
    revert a
    cases p <;> decide
  rw [returnRun_read_port r ha, emptyPorts_zero t2 p h]

theorem returnRun_ringState (p : Port) :
    t.srr.read (aRingState p) = if (s.rings.get p).state = .quiet then s.srr.read (aRingState p) else 0 := by
  have ha : 0x180 ≤ aRingState p ∧ aRingState p < 0x200 := by cases p <;> decide
  rw [returnRun_read_port r ha.1, emptyPorts_ringState, returnRun_rings r, returnRun_read_low r ha.2]

end Chain

/-- Nothing that RETURN TO CONFIG raises before its change of mode is a latch request. -/
theorem returnRun_latches_nothing (s : State) (p : Port) (c : Accounted Cause) :
    .latchRequest p c ∉ (List.finRange 128).flatMap (fun f => undefinedNotice f s.faults[f]) ++ provisionalReleases s ++
      quietReport s .e ++ quietReport s .a := by
  have hquiet : ∀ p', .latchRequest p c ∉ quietReport s p' := fun p' h => by
    unfold quietReport at h
    split at h
    · cases h
    · cases List.mem_singleton.1 h
  simp only [List.mem_append, not_or]
  refine ⟨⟨⟨fun h => ?_, fun h => ?_⟩, hquiet .e⟩, hquiet .a⟩
  · obtain ⟨f, _, hf⟩ := List.mem_flatMap.1 h
    unfold undefinedNotice at hf
    split at hf
    · split at hf
      · cases List.mem_singleton.1 hf
      · cases hf
    · cases hf
  · rw [provisionalReleases_eq] at h
    obtain ⟨b, _, hb⟩ := List.mem_filterMap.1 h
    unfold releaseNotice at hb
    split at hb
    · split at hb <;> cases hb
    · cases hb

end Sys2Proof.Requests
end

section
/-! SUPPORT. START RIDE as dispatched (R73, R136, R137, R142 to R146) and END RIDE (R40, R147), and the statement about the
requests that change the mode. -/

namespace Sys2Proof.Requests
open Sys2Proof.Machine

/-! ### START RIDE -/

/-- The entry of a fault after START RIDE: a defined one is reset (R73). -/
def rideReset (e : FaultEntry) : FaultEntry := if e.defn = none then e else e.untested

def rideResetEvents (f : FaultNo) (e : FaultEntry) : List Instr :=
  match e.defn with
  | none => []
  | some d => discardEvents f e ++ demandEvents f d e.phase .untested

theorem updateFault_self (s : State) (f : FaultNo) : s.updateFault f s.faults[f] = s := by
  unfold State.updateFault State.setFault
  rw [if_pos rfl, set_getElem]

theorem resetEntry_eq : State.resetEntry = mapEntry rideReset rideResetEvents := by
  funext s f
  unfold State.resetEntry mapEntry rideReset rideResetEvents
  cases h : (s.faults[f]).defn with
  | none =>
    dsimp only
    rw [h, if_pos rfl, updateFault_self]
    exact (congrArg (fun l => { s with inFlight := l }) (List.append_nil s.inFlight)).symm
  | some d =>
    dsimp only
    rw [h, if_neg nofun]

/-- The words of step 1 of START RIDE. -/
def rideWords (s : State) : List (Nat × Word) :=
  [(aRideNumber, s.sup.rideStarted.rideNumber), (aEngineRun, 0), (aMaxSpeed, 0), (aMoving, 0), (aAbsReady, 0)]

theorem read_rideWords (s : State) : ∀ w ∈ rideWords s, (s.srr.writeAll (rideWords s)).read w.1 = w.2 := by
  simp [rideWords, Mem.read_write, aRideNumber, aEngineRun, aMaxSpeed, aMoving, aAbsReady]

def readyNotice (s : State) : List Instr := if s.sup.absReady then [.absReadyChangeNotice] else []

/-- The part after step 1 of START RIDE. -/
def rideBegun (s : State) : State :=
  { s with sup := s.sup.rideStarted, srr := s.srr.writeAll (rideWords s), stores := rideWords s,
           inFlight := s.inFlight.erase .startRide ++ .dirtyMark .header :: readyNotice s }

/-- Step 3 of START RIDE, and the events of step 4. -/
def rideEntered (s : State) : State :=
  let s' := s.changeMode .ride
  (s'.setHandler { s'.handler with start := some { rings := true, lamps := true } }).raise .rideStartStep

theorem rideEntered_eq {s : State} (h : s.sup.mode ≠ .ride) :
    rideEntered s =
      { s with
        sup := { s.sup with mode := .ride }, srr := s.srr.write aMode 3, stores := s.stores ++ [(aMode, 3)],
        handler := { s.handler with fdtLocked := false, start := some { rings := true, lamps := true } },
        inFlight := s.inFlight ++ [.modeNotice, .fcuModeNotice .entered, .rideStartStep] } := by
  unfold rideEntered
  rw [State.changeMode_eq, if_pos ⟨rfl, h⟩]
  simp [State.setHandler, State.raise, Mode.code]

theorem beginRide_eq (s : State) :
    (s.begin .startRide).beginRide =
      rideEntered ((List.finRange 128).foldl (mapEntry rideReset rideResetEvents) (rideBegun s)) := by
  have hbegun (u : State) (hu : u = s.begin .startRide) : ((u.setSup u.sup.rideStarted).putAll
      [(aRideNumber, u.sup.rideStarted.rideNumber), (aEngineRun, 0), (aMaxSpeed, 0), (aMoving, 0),
        (aAbsReady, 0)]).raiseAll (.dirtyMark .header :: if u.sup.absReady then [.absReadyChangeNotice] else []) =
      rideBegun s := by
    rw [State.putAll_eq, hu]
    rfl
  unfold State.beginRide
  dsimp only
  rw [hbegun _ rfl, resetEntry_eq]
  rfl

/-- START RIDE in IDLE: step 1, the entries, the mode, and the events of step 4. -/
structure StartRideRun (s t1 t : State) : Prop where
  entries : EntriesMapped rideReset rideResetEvents (List.finRange 128) (rideBegun s) t1
  after   : t = { t1 with
    sup := { t1.sup with mode := .ride }, srr := t1.srr.write aMode 3, stores := t1.stores ++ [(aMode, 3)],
    handler := { t1.handler with fdtLocked := false, start := some { rings := true, lamps := true } },
    inFlight := t1.inFlight ++ [.modeNotice, .fcuModeNotice .entered, .rideStartStep] }

theorem exec_startRide {s : State} (h : s.Running) (hm : s.sup.mode = .idle) (hs : s.handler.start = none) :
    ∃ t1 t, exec .startRide s = .next t ∧ StartRideRun s t1 t := by
  have hentries := foldl_mapEntry rideReset rideResetEvents (List.nodup_finRange 128) (rideBegun s)
  generalize ht1 : (List.finRange 128).foldl (mapEntry rideReset rideResetEvents) (rideBegun s) = t1 at hentries
  have hmode : t1.sup.mode = .idle := by
    rw [hentries.frame]
    exact hm
  refine ⟨t1, _, ?_, hentries, rideEntered_eq (fun hr => Mode.noConfusion (hmode.symm.trans hr))⟩
  change execStartRide s = _
  rw [execStartRide, State.takeUp_free h.1 h.2, State.begin_handler, hs]
  dsimp only
  rw [if_neg (by simp [hm]), beginRide_eq, ht1]

theorem startRide_refuses {s : State} (h : s.Running) (hm : s.sup.mode ≠ .idle) (hs : s.handler.start = none) :
    Refuses .startRide .e s 1 := by
  refine refuses_of_begin ?_
  change execStartRide s = _
  rw [execStartRide, State.takeUp_free h.1 h.2, State.begin_handler, hs]
  dsimp only
  rw [if_pos (by exact hm)]
  rfl

section Chain
variable {s t1 t : State} (r : StartRideRun s t1 t)
include r

theorem startRideRun_frame :
    t = { s with
      inFlight := t.inFlight, stores := t.stores, srr := t.srr, faults := t.faults,
      sup := { s.sup.rideStarted with mode := .ride },
      handler := { s.handler with fdtLocked := false, start := some { rings := true, lamps := true } } } := by
  rw [r.after, r.entries.frame]
  rfl

theorem startRideRun_read {a : Nat} (ha : a < 0x200) (hm : a ≠ aMode) :
    t.srr.read a = (s.srr.writeAll (rideWords s)).read a := by
  rw [r.after, Mem.read_write_other _ _ hm]
  refine r.entries.reach a ?_
  rintro ⟨f, _, h⟩
  have := inFaultView_bounds h
  omega

theorem startRideRun_word : ∀ w ∈ rideWords s, t.srr.read w.1 = w.2 := by
  intro w hw
  have hlow : w.1 < 0x200 ∧ w.1 ≠ aMode := by
    simp only [rideWords, List.mem_cons, List.not_mem_nil, or_false] at hw
    rcases hw with rfl | rfl | rfl | rfl | rfl <;> exact ⟨by dsimp only; decide, by dsimp only; decide⟩
  rw [startRideRun_read r hlow.1 hlow.2]
  exact read_rideWords s w hw

theorem startRideRun_mode : t.srr.read aMode = 3 := by rw [r.after, Mem.read_write_same]

theorem startRideRun_reach :
    SrrOnly s t fun a => a ∈ [aMode, aRideNumber, aEngineRun, aMaxSpeed, aMoving, aAbsReady] ∨
      ∃ f, inFaultView f a := by
  have hwords : SrrOnly s (rideBegun s) fun a => a ∈ (rideWords s).map (·.1) := srrOnly_writeAll rfl
  have hmode : SrrOnly t1 t (· = aMode) := fun a ha => by rw [r.after, Mem.read_write_other _ _ ha]
  refine srrOnly_mono (srrOnly_trans (srrOnly_trans hwords r.entries.reach) hmode) fun a ha => ?_
  rcases ha with (ha | ⟨f, _, ha⟩) | rfl
  · exact .inl (List.mem_cons_of_mem _ ha)
  · exact .inr ⟨f, ha⟩
  · exact .inl (List.mem_cons_self ..)

theorem startRideRun_entry (f : FaultNo) :
    FaultViewKept s t f ∧ t.faults[f] = rideReset s.faults[f] := by
  have hf : t.faults[f] = t1.faults[f] := by rw [r.after]
  refine ⟨faultViewKept_congr (r.entries.view f) rfl hf (fun a ha => ?_) fun a ha => ?_, ?_⟩
  · refine (srrOnly_writeAll (s := s) (t := rideBegun s) rfl a fun h => ?_).symm
    have hb := inFaultView_bounds ha
    have hlow : ∀ b ∈ (rideWords s).map (·.1), b < 0x200 := by
      simp [rideWords, aRideNumber, aEngineRun, aMaxSpeed, aMoving, aAbsReady]
    have := hlow a h
    omega
  · have hb := inFaultView_bounds ha
    rw [r.after, Mem.read_write_other _ _ (by rw [aMode_eq]; omega)]
  · rw [hf, r.entries.entry, if_pos (List.mem_finRange f)]
    rfl

theorem startRideRun_raises :
    Raises .startRide s t (.dirtyMark .header :: (readyNotice s ++
      (List.finRange 128).flatMap (fun f => rideResetEvents f s.faults[f]) ++
      [.modeNotice, .fcuModeNotice .entered, .rideStartStep])) := by
  rw [Raises, r.after, r.entries.frame]
  simp only [rideBegun, List.append_assoc, List.cons_append]

end Chain

/-! ### END RIDE -/

/-- Queue `p` with its drain begun (R40); one that holds no record has been reported drained. -/
def drainingQueue (s : State) (p : Port) : Queue :=
  { s.queues.get p with drain := (s.queues.get p).occupancy, reported := decide ((s.queues.get p).occupancy = 0) }

def drainedNotice (s : State) (p : Port) : List Instr :=
  if (s.queues.get p).occupancy = 0 then [.queueDrained p] else []

theorem startDrain_eq {s : State} (hm : s.sup.mode = .closing) (p : Port) :
    s.startDrain p =
      { s with queues := s.queues.set p (drainingQueue s p), inFlight := s.inFlight ++ drainedNotice s p } := by
  unfold State.startDrain State.reportDrained drainedNotice drainingQueue
  by_cases h : (s.queues.get p).occupancy = 0 <;> simp [hm, h, State.setQueue, State.raise]

theorem exec_endRide {s : State} (h : s.Running) (hm : s.sup.mode = .ride) :
    exec .endRide s = .next
      { s with
        inFlight := s.inFlight.erase .endRide ++
          .modeNotice :: .fcuModeNotice .left :: (drainedNotice s .e ++ drainedNotice s .a),
        stores := [(aMode, 4)], srr := s.srr.write aMode 4,
        queues := { e := drainingQueue s .e, a := drainingQueue s .a },
        sup := { s.sup with mode := .closing, drained := { e := false, a := false }, aged := none, suspects := none },
        handler := { s.handler with fdtLocked := false } } := by
  change execEndRide s = _
  rw [execEndRide, State.takeUp_free h.1 h.2, if_neg (by simp [hm])]
  dsimp only
  have hmode : ∀ u : State, (u.changeMode .closing).sup.mode = .closing := fun u => State.changeMode_mode u _
  rw [startDrain_eq (s := State.startDrain _ _) (by rw [startDrain_eq (hmode _)]; exact hmode _),
    startDrain_eq (hmode _), State.changeMode_eq, if_neg nofun, if_pos ⟨hm, nofun⟩]
  simp only [List.append_assoc, List.cons_append, List.nil_append]
  rfl

/-! ### Refusals, and the statement -/

theorem returnToConfig_refuses {s : State} (h : s.Running) (hm : s.sup.mode ≠ .idle) :
    Refuses .returnToConfig .e s 1 := by
  refine refuses_of_begin ?_
  change execReturnToConfig s = _
  rw [execReturnToConfig, State.takeUp_free h.1 h.2, if_pos (by exact hm)]
  rfl

theorem endRide_refuses {s : State} (h : s.Running) (hm : s.sup.mode ≠ .ride) : Refuses .endRide .e s 1 := by
  refine refuses_of_begin ?_
  change execEndRide s = _
  rw [execEndRide, State.takeUp_free h.1 h.2, if_pos (by exact hm)]
  rfl

/-- The events of an entry's reset, the discard standing out. -/
def rideResetRequests (f : FaultNo) (e : FaultEntry) : List Instr :=
  match e.defn with
  | some d =>
    if e.phase ≠ .untested ∧ d.lamp ≠ .none then discardEvents f e ++ [.demandNotice f] else discardEvents f e
  | none => []

theorem rideResetEvents_eq (f : FaultNo) (e : FaultEntry) : rideResetEvents f e = rideResetRequests f e := by
  unfold rideResetEvents rideResetRequests demandEvents
  cases e.defn with
  | none => rfl
  | some d => by_cases h : e.phase ≠ .untested ∧ d.lamp ≠ .none <;> simp [h]

/-- Settles O51: RETURN TO CONFIG is a `ReturnRun`, START RIDE a `StartRideRun`, and END RIDE one equation. -/
theorem requestsChangeTheMode : Obligations.RequestsChangeTheMode := by
  intro s h
  refine ⟨fun hm => ⟨returnToConfig_refuses h hm, startRide_refuses h hm⟩, endRide_refuses h, fun hm => ?_,
    fun hm hs => ?_, fun hm => ?_⟩
  · obtain ⟨t1, t2, t, hx, r⟩ := exec_returnToConfig h hm
    refine ⟨t, _, hx, returnRun_raises r, returnRun_frame r, returnRun_entry r, returnRun_buffer r,
      fun b c => returnRun_header r, fun p => ?_, fun p c account => returnRun_latches_nothing s p ⟨c, account⟩, ?_,
      r.done.mode, returnRun_completed r, returnRun_reach r⟩
    · rw [returnRun_queue r, returnRun_ring r]
      exact ⟨rfl, levelled_levelsHold .., rfl, returnRun_zero r p (by simp), returnRun_zero r p (by simp),
        returnRun_zero r p (by simp), returnRun_zero r p (by simp), returnRun_ringState r p⟩
    · rw [flatMap_undefinedNotice]
      rfl
  · obtain ⟨t1, t, hx, r⟩ := exec_startRide h hm hs
    have hword := startRideRun_word r
    have hraises := startRideRun_raises r
    rw [List.flatMap_congr fun f _ => rideResetEvents_eq f s.faults[f]] at hraises
    exact ⟨t, hx, startRideRun_frame r, startRideRun_entry r, hword _ (List.mem_cons_self ..),
      hword (aEngineRun, 0) (by simp [rideWords]), hword (aMaxSpeed, 0) (by simp [rideWords]),
      hword (aMoving, 0) (by simp [rideWords]), hword (aAbsReady, 0) (by simp [rideWords]), startRideRun_mode r,
      startRideRun_reach r, hraises⟩
  · exact ⟨_, exec_endRide h hm, rfl, fun p => by cases p <;> rfl, Mem.read_write_same ..,
      fun a ha => Mem.read_write_other _ _ ha, rfl⟩

end Sys2Proof.Requests
end

section
/-! SUPPORT. Handing a change of event memory on (R108): the views rewritten, the events raised and how far it reaches. -/

namespace Sys2Proof.Requests
open Sys2Proof.Machine

/-! ### One record view (R18) -/

/-- The words of a record view that a rewrite stores. -/
def inRecordWords (i : SlotNo) (a : Nat) : Prop := recordView i ≤ a ∧ a ≤ recordView i + 10

theorem recordWords_length (o : Option Record) : (recordWords o).length = 10 := by cases o <;> rfl

theorem publishRecord_rewritten (s : State) (i : SlotNo) : RecordRewritten s (s.publishRecord i) i := by
  have hlen := recordWords_length s.slots[i]
  refine ⟨?_, rewrite_counter s fun w hw => ?_⟩
  · rw [State.publishRecord_slots, ← hlen]
    exact rewrite_words s (.inr (by omega))
  · have := mem_wordsAt hw
    omega

theorem publishRecord_reach (s : State) (i : SlotNo) : SrrOnly s (s.publishRecord i) (inRecordWords i) := by
  refine srrOnly_mono (rewrite_reach s _ _) fun a ha => ?_
  have hlen := recordWords_length s.slots[i]
  rcases ha with rfl | ⟨w, hw, rfl⟩
  · exact ⟨by omega, by omega⟩
  · have := mem_wordsAt hw
    exact ⟨by omega, by omega⟩

theorem inRecordWords_inj {i j : SlotNo} {a : Nat} (hi : inRecordWords i a) (hj : inRecordWords j a) : i = j := by
  unfold inRecordWords recordView at hi hj
  exact Fin.ext (by omega)

/-- The slot and the words of its view decide whether the view has been rewritten. -/
theorem recordRewritten_congr {s s' t t' : State} {i : SlotNo} (h : RecordRewritten s t i)
    (hslot : t'.slots[i] = t.slots[i]) (hs : ∀ a, inRecordWords i a → s'.srr.read a = s.srr.read a)
    (ht : ∀ a, inRecordWords i a → t'.srr.read a = t.srr.read a) : RecordRewritten s' t' i := by
  obtain ⟨hwords, hcount⟩ := h
  have hc : inRecordWords i (recordView i + 10) := ⟨by omega, by omega⟩
  refine ⟨?_, by rw [ht _ hc, hs _ hc, hcount]⟩
  rw [hslot, ← hwords]
  exact readRange_congr fun a h1 h2 => ht a ⟨h1, by omega⟩

/-! ### The views of the slots, in ascending number -/

/-- The dirty mark of a slot whose view has changed. -/
def dirtyNotice (old new : Vector (Option Record) 16) (i : SlotNo) : Option Instr :=
  if recordWords old[i] = recordWords new[i] then none else some (.dirtyMark (.slot i))

/-- What the handing on of the slots `l` comes to. -/
structure SlotsHanded (old : Vector (Option Record) 16) (l : List SlotNo) (s t : State) : Prop where
  frame : t = { s with srr := t.srr, stores := t.stores,
                       inFlight := s.inFlight ++ l.filterMap (dirtyNotice old s.slots) }
  view  : ∀ i ∈ l, recordWords old[i] ≠ recordWords s.slots[i] → RecordRewritten s t i
  reach : SrrOnly s t fun a => ∃ i ∈ l, recordWords old[i] ≠ recordWords s.slots[i] ∧ inRecordWords i a

theorem handSlot_same {old : Vector (Option Record) 16} {s : State} {i : SlotNo}
    (h : recordWords old[i] = recordWords s.slots[i]) : State.handSlot old s i = s := if_pos h

theorem handSlot_changed {old : Vector (Option Record) 16} {s : State} {i : SlotNo}
    (h : recordWords old[i] ≠ recordWords s.slots[i]) :
    State.handSlot old s i = (s.publishRecord i).raise (.dirtyMark (.slot i)) := if_neg h

theorem foldl_handSlot (old : Vector (Option Record) 16) {l : List SlotNo} (hl : l.Nodup) (s : State) :
    SlotsHanded old l s (l.foldl (State.handSlot old) s) := by
  induction l generalizing s with
  | nil => exact ⟨by simp, nofun, fun _ _ => rfl⟩
  | cons i l ih =>
    obtain ⟨hi, hl⟩ := List.nodup_cons.1 hl
    obtain ⟨hframe, hview, hreach⟩ := ih hl (State.handSlot old s i)
    rw [List.foldl_cons]
    generalize l.foldl (State.handSlot old) (State.handSlot old s i) = t at hframe hview hreach
    have hslots : (State.handSlot old s i).slots = s.slots := by rw [State.handSlot_frame]
    rw [hslots] at hview hreach
    by_cases h : recordWords old[i] = recordWords s.slots[i]
    · have hnone : dirtyNotice old s.slots i = none := if_pos h
      rw [handSlot_same h] at hframe hview hreach
      refine ⟨by rw [List.filterMap_cons_none hnone]; exact hframe, fun j hj hne => ?_, ?_⟩
      · rcases List.mem_cons.1 hj with rfl | hj
        · exact absurd h hne
        · exact hview j hj hne
      · exact srrOnly_mono hreach fun a ⟨j, hj, h⟩ => ⟨j, List.mem_cons_of_mem _ hj, h⟩
    · have hsome : dirtyNotice old s.slots i = some (.dirtyMark (.slot i)) := if_neg h
      rw [handSlot_changed h] at hframe hview hreach
      refine ⟨?_, fun j hj hne => ?_, ?_⟩
      · rw [List.filterMap_cons_some hsome, hframe, State.raise_slots, State.publishRecord_slots, State.publishRecord,
          State.rewrite_eq, State.putAll_eq]
        simp [State.raise]
      · rcases List.mem_cons.1 hj with rfl | hj
        · refine recordRewritten_congr (publishRecord_rewritten s j) ?_ (fun _ _ => rfl) fun a ha =>
            hreach a fun ⟨k, hk, _, ha'⟩ => hi (inRecordWords_inj ha ha' ▸ hk)
          rw [hframe]
          rfl
        · exact recordRewritten_congr (hview j hj hne) rfl
            (fun a ha => (publishRecord_reach s i a fun ha' => hi (inRecordWords_inj ha' ha ▸ hj)).symm) fun _ _ => rfl
      · refine srrOnly_mono (srrOnly_trans (publishRecord_reach s i) hreach) fun a ha => ?_
        rcases ha with ha | ⟨j, hj, ha⟩
        · exact ⟨i, List.mem_cons_self .., h, ha⟩
        · exact ⟨j, List.mem_cons_of_mem _ hj, ha⟩

/-! ### The index list (R119) -/

theorem insertSlot_length (slots : Vector (Option Record) 16) (i : SlotNo) (l : List SlotNo) :
    (insertSlot slots i l).length = l.length + 1 := by
  induction l with
  | nil => rfl
  | cons j l ih =>
    unfold insertSlot
    split
    · rfl
    · rw [List.length_cons, ih, List.length_cons]

theorem indexOf_length_le (slots : Vector (Option Record) 16) : (indexOf slots).length ≤ 16 := by
  have hfold : ∀ l : List SlotNo, (l.foldr (insertSlot slots) []).length = l.length := fun l => by
    induction l with
    | nil => rfl
    | cons i l ih => rw [List.foldr_cons, insertSlot_length, ih, List.length_cons]
  rw [indexOf, hfold]
  exact (List.length_filter_le ..).trans (by simp)

theorem indexWords_length {l : List SlotNo} (h : l.length ≤ 16) : (indexWords l).length = 30 := by
  simp [indexWords]
  omega

theorem publishIndex_rewritten {s : State} (h : s.index.length ≤ 16) : IndexRewritten s s.publishIndex := by
  have hlen := indexWords_length h
  have hc : ∀ w ∈ (indexView, BitVec.ofNat 16 s.index.length) :: wordsAt (indexView + 2) (indexWords s.index),
      w.1 ≠ indexView + 1 := fun w hw => by
    rcases List.mem_cons.1 hw with rfl | hw
    · simp
    · have := mem_wordsAt hw
      omega
  refine ⟨?_, rewrite_counter s hc⟩
  have hcount : s.publishIndex.srr.read indexView = BitVec.ofNat 16 s.index.length := by
    rw [State.publishIndex, rewrite_srr s hc, Mem.read_write_other _ _ (by omega), Mem.writeAll_cons,
      Mem.read_writeAll_other, Mem.read_write_same]
    intro w hw
    have := mem_wordsAt hw
    omega
  have hwords : s.publishIndex.srr.readRange (indexView + 2) 30 = indexWords s.index := by
    rw [State.publishIndex, rewrite_srr s hc, Mem.writeAll_cons]
    calc _
      _ = Mem.readRange (((s.srr.write (indexView + 1) (s.srr.read (indexView + 1) + 1)).write indexView _).writeAll
            (wordsAt (indexView + 2) (indexWords s.index))) (indexView + 2) (indexWords s.index).length := by
          rw [hlen]
          exact readRange_congr fun a _ _ => Mem.read_write_other _ _ (by omega)
      _ = indexWords s.index := readRange_writeAll_wordsAt ..
  rw [State.publishIndex_index, hwords, ← hcount]
  rfl

theorem publishIndex_reach {s : State} (h : s.index.length ≤ 16) : SrrOnly s s.publishIndex inIndexView := by
  have hlen := indexWords_length h
  refine srrOnly_mono (rewrite_reach s _ _) fun a ha => ?_
  unfold inIndexView
  rcases ha with rfl | ⟨w, hw, rfl⟩
  · omega
  · rcases List.mem_cons.1 hw with rfl | hw
    · dsimp only
      omega
    · have := mem_wordsAt hw
      omega

/-- The index list and its words decide whether the list has been rewritten. -/
theorem indexRewritten_congr {s s' t t' : State} (h : IndexRewritten s t) (hindex : t'.index = t.index)
    (hs : ∀ a, inIndexView a → s'.srr.read a = s.srr.read a)
    (ht : ∀ a, inIndexView a → t'.srr.read a = t.srr.read a) : IndexRewritten s' t' := by
  obtain ⟨hwords, hcount⟩ := h
  have hc : inIndexView (indexView + 1) := ⟨by omega, by omega⟩
  refine ⟨?_, by rw [ht _ hc, hs _ hc, hcount]⟩
  rw [hindex, ← hwords]
  congr 1 <;> exact readRange_congr fun a h1 h2 => ht a ⟨by omega, by omega⟩

theorem not_listRewritten_iff {s : State} {new : Vector (Option Record) 16} :
    ¬ ListRewritten s new ↔
      indexOf new = s.index ∧ ∀ i : SlotNo, (s.slots[i].map fun r => r.fault) = new[i].map fun r => r.fault := by
  simp [ListRewritten]

/-- What the handing on of the index list comes to, for a change from the slots and the index list of `s0`. -/
structure IndexHanded (s0 : State) (account : Option FaultNo) (s t : State) : Prop where
  frame   : t = { s with
    index := indexOf s.slots, srr := t.srr, stores := t.stores,
    inFlight := s.inFlight ++
      if indexOf s.slots = s0.index ∧ (∀ i : SlotNo, (s0.slots[i].map fun r => r.fault) = s.slots[i].map fun r => r.fault)
      then [] else [.latchRequest .e ⟨.store, account⟩, .latchRequest .a ⟨.store, account⟩] }
  kept    : ¬ ListRewritten s0 s.slots → t.srr = s.srr
  rewrite : ListRewritten s0 s.slots → IndexRewritten s t
  reach   : SrrOnly s t inIndexView

theorem handIndex_handed {s0 s : State} (h : s.index = s0.index) (account : Option FaultNo) :
    IndexHanded s0 account s (State.handIndex account s0.slots s) := by
  rcases State.handIndex_cases account s0.slots s with ⟨hindex, hmembers, heq⟩ | ⟨hn, heq⟩
  · have hsame : ¬ ListRewritten s0 s.slots :=
      not_listRewritten_iff.2 ⟨hindex.trans h, membersChanged_eq_false.1 hmembers⟩
    rw [heq]
    refine ⟨?_, fun _ => rfl, fun hr => absurd hr hsame, fun _ _ => rfl⟩
    rw [if_pos (not_listRewritten_iff.1 hsame), List.append_nil, hindex]
  · rw [h, membersChanged_eq_false] at hn
    have hlen : (s.setIndex (indexOf s.slots)).index.length ≤ 16 := indexOf_length_le s.slots
    rw [heq]
    refine ⟨?_, fun hr => absurd (not_listRewritten_iff.1 hr) hn, fun _ => ?_, ?_⟩
    · rw [if_neg hn, State.publishIndex, State.rewrite_eq, State.putAll_eq]
      rfl
    · exact indexRewritten_congr (publishIndex_rewritten hlen) rfl (fun _ _ => rfl) fun _ _ => rfl
    · exact fun a ha => publishIndex_reach hlen a ha

/-! ### The record lamp notices, and the whole -/

def lampNotice (account : Option FaultNo) (old new : Vector (Option Record) 16) (i : SlotNo) : Option Instr :=
  if lampsConcerned old[i] new[i] = .none then none else some (.recordLampNotice ⟨lampsConcerned old[i] new[i], account⟩)

theorem foldl_handLamps (account : Option FaultNo) (old : Vector (Option Record) 16) (l : List SlotNo) (s : State) :
    l.foldl (State.handLamps account old) s =
      { s with inFlight := s.inFlight ++ l.filterMap (lampNotice account old s.slots) } := by
  induction l generalizing s with
  | nil => simp
  | cons i l ih =>
    rw [List.foldl_cons, ih]
    unfold State.handLamps
    by_cases h : lampsConcerned old[i] s.slots[i] = .none
    · have hnone : lampNotice account old s.slots i = none := if_pos h
      rw [List.filterMap_cons_none hnone, if_pos h]
    · have hsome : lampNotice account old s.slots i =
          some (.recordLampNotice ⟨lampsConcerned old[i] s.slots[i], account⟩) := if_neg h
      rw [List.filterMap_cons_some hsome, if_neg h]
      simp [State.raise]

theorem handedOn_eq (s : State) (account : Option FaultNo) (new : Vector (Option Record) 16) :
    handedOn s account new =
      (List.finRange 16).filterMap (dirtyNotice s.slots new) ++
        (if indexOf new = s.index ∧ (∀ i : SlotNo, (s.slots[i].map fun r => r.fault) = new[i].map fun r => r.fault)
          then [] else [.latchRequest .e ⟨.store, account⟩, .latchRequest .a ⟨.store, account⟩]) ++
        (List.finRange 16).filterMap (lampNotice account s.slots new) := rfl

/-- What the handing on of a change comes to, from the slots and the index list of `s0` to those of `s`. -/
structure HandedOn (s0 : State) (account : Option FaultNo) (s t : State) : Prop where
  frame : t = { s with index := indexOf s.slots, srr := t.srr, stores := t.stores,
                       inFlight := s.inFlight ++ handedOn s0 account s.slots }
  views : (∀ a, (∃ i, inRecordView i a) ∨ inIndexView a → s.srr.read a = s0.srr.read a) → EventViewsFollow s0 t
  reach : SrrOnly s t inEventViews

theorem inRecordView_of_words {i : SlotNo} {a : Nat} (h : inRecordWords i a) : inRecordView i a :=
  ⟨h.1, by have := h.2; omega⟩

theorem inRecordView_inj {i j : SlotNo} {a : Nat} (hi : inRecordView i a) (hj : inRecordView j a) : i = j := by
  unfold inRecordView recordView at hi hj
  exact Fin.ext (by omega)

theorem inRecordView_not_index {i : SlotNo} {a : Nat} (h : inRecordView i a) : ¬ inIndexView a := by
  unfold inRecordView recordView at h
  unfold inIndexView indexView
  omega

theorem handOn_handed {s0 s : State} (h : s.index = s0.index) (account : Option FaultNo) :
    HandedOn s0 account s (s.handOn account s0.slots) := by
  have hslots := foldl_handSlot s0.slots (List.nodup_finRange 16) s
  unfold State.handOn
  dsimp only
  generalize (List.finRange 16).foldl (State.handSlot s0.slots) s = s1 at hslots
  obtain ⟨hframe1, hview1, hreach1⟩ := hslots
  have hindex := handIndex_handed (s0 := s0) (s := s1) (by rw [hframe1]; exact h) account
  generalize State.handIndex account s0.slots s1 = s2 at hindex
  obtain ⟨hframe2, hkept2, hrewrite2, hreach2⟩ := hindex
  have hlamps := foldl_handLamps account s0.slots (List.finRange 16) s2
  generalize (List.finRange 16).foldl (State.handLamps account s0.slots) s2 = t at hlamps
  have hs1 : s1.slots = s.slots := by rw [hframe1]
  rw [hs1] at hframe2 hkept2 hrewrite2
  have hs2 : s2.slots = s.slots := by rw [hframe2]
  rw [hs2] at hlamps
  have ht : t.slots = s.slots := by rw [hlamps]
  have hsrr : t.srr = s2.srr := by rw [hlamps]
  have hreach : SrrOnly s t fun a =>
      (∃ i ∈ List.finRange 16, recordWords s0.slots[i] ≠ recordWords s.slots[i] ∧ inRecordWords i a) ∨
        inIndexView a := by
    intro a ha
    rw [hsrr, srrOnly_trans hreach1 hreach2 a ha]
  refine ⟨?_, fun hs0 => ⟨?_, fun i => ⟨fun he a ha => ?_, fun hne => ?_⟩, fun hl a ha => ?_, fun hl => ?_⟩, ?_⟩
  · rw [handedOn_eq, hlamps, hframe2, hframe1]
    simp only [List.append_assoc]
  · rw [ht, hlamps, hframe2]
  · rw [← hs0 a (.inl ⟨i, ha⟩)]
    refine hreach a ?_
    rintro (⟨j, _, hne, hj⟩ | hi)
    · rw [ht, inRecordView_inj ha (inRecordView_of_words hj)] at he
      exact hne he
    · exact inRecordView_not_index ha hi
  · rw [ht] at hne
    refine recordRewritten_congr (hview1 i (List.mem_finRange i) hne) (by rw [ht, hs1])
      (fun a ha => (hs0 a (.inl ⟨i, inRecordView_of_words ha⟩)).symm) fun a ha => ?_
    rw [hsrr, hreach2 a (inRecordView_not_index (inRecordView_of_words ha))]
  · rw [ht] at hl
    rw [hsrr, hkept2 hl, ← hs0 a (.inr ha)]
    exact hreach1 a fun ⟨j, _, _, hj⟩ => inRecordView_not_index (inRecordView_of_words hj) ha
  · rw [ht] at hl
    refine indexRewritten_congr (hrewrite2 hl) (by rw [hlamps]) (fun a ha => ?_) fun a _ => by rw [hsrr]
    rw [← hs0 a (.inr ha)]
    exact (hreach1 a fun ⟨j, _, _, hj⟩ => inRecordView_not_index (inRecordView_of_words hj) ha).symm
  · exact srrOnly_mono hreach fun a ha => ha.elim (fun ⟨i, _, _, h⟩ => .inr ⟨i, h⟩) .inl

end Sys2Proof.Requests
end

section
/-! SUPPORT. The build of TAKE DEFINITIONS, one fault's entry after the other (R26, R69). -/

namespace Sys2Proof.Requests
open Sys2Proof.Machine

/-- The demand notice of an entry that the build changes. -/
def builtNotice (found : Option Definition) (f : FaultNo) (e : FaultEntry) : List Instr :=
  match (builtEntry found e).defn with
  | some d => if e.stateCode ≠ (builtEntry found e).stateCode ∧ d.lamp ≠ .none then [.demandNotice f] else []
  | none => []

theorem builtEntry_eq (found : Option Definition) (e : FaultEntry) :
    builtEntry found e = { FaultEntry.reset with episode := e.episode, defn := found } := by
  cases found <;> rfl

/-- Of the defined entries, that which stands UNTESTED is told by its state code. -/
theorem stateCode_eq_one (e : FaultEntry) : e.stateCode = 1 ↔ e.defn ≠ none ∧ e.phase = .untested := by
  unfold FaultEntry.stateCode
  cases e.defn <;> cases e.phase <;> simp

/-- The demand notice of the build: of a fault that has a lamp and did not stand UNTESTED before. -/
def builtDemand (found : Option Definition) (f : FaultNo) (e : FaultEntry) : List Instr :=
  match found with
  | some d => if d.lamp ≠ .none ∧ ¬ (e.defn ≠ none ∧ e.phase = .untested) then [.demandNotice f] else []
  | none => []

theorem builtNotice_eq (found : Option Definition) (f : FaultNo) (e : FaultEntry) :
    builtNotice found f e = builtDemand found f e := by
  cases found with
  | none => rfl
  | some d =>
    have hcode : (builtEntry (some d) e).stateCode = 1 := rfl
    unfold builtNotice builtDemand
    rw [hcode, builtEntry_eq]
    simp only [ne_eq, stateCode_eq_one]
    by_cases h : d.lamp = .none <;> by_cases h' : ¬ e.defn = none ∧ e.phase = .untested <;> simp [h, h']

/-- One entry built: what the pass over that fault alone comes to. -/
theorem buildEntry_mapped (found : Option Definition) (s : State) (f : FaultNo) :
    EntriesMapped (builtEntry found) (builtNotice found) [f] s (s.buildEntry found f) :=
  foldl_mapEntry (builtEntry found) (builtNotice found) (List.nodup_singleton f) s

theorem building_eq {h : Handler} {k : TakeRun} {f : FaultNo} (hk : h.take = some k) (hf : k.next = some f) :
    h.building = some (f, k) := by
  rw [Handler.building, hk]
  dsimp only
  rw [hf]
  rfl

/-- TAKE_DEFINITIONS with a build in progress builds the next fault's entry. -/
theorem exec_takeDefinitions_builds {s : State} (h : s.Running) (hm : s.sup.mode = .config) {k : TakeRun} {f : FaultNo}
    (hk : s.handler.take = some k) (hf : k.next = some f) :
    exec .takeDefinitions s = .next ((s.begin .takeDefinitions).buildNext f k) := by
  change execTakeDefinitions s = _
  rw [execTakeDefinitions, State.takeUp_free h.1 h.2, if_neg (by simp [hm]), State.begin_handler, building_eq hk hf]

/-! ### A fault before the last -/

/-- What the build of one entry comes to, whatever the handler does next. -/
structure EntryBuilt (found : Option Definition) (f : FaultNo) (s t : State) : Prop where
  faults : t.faults = s.faults.set f { FaultEntry.reset with episode := (s.faults[f]).episode, defn := found }
  view   : FaultViewKept s t f
  reach  : SrrOnly s t (inFaultView f)

theorem entryBuilt_of_mapped {found : Option Definition} {f : FaultNo} {s t : State}
    (h : EntriesMapped (builtEntry found) (builtNotice found) [f] s t) : EntryBuilt found f s t := by
  refine ⟨Vector.ext fun i hi => ?_, h.view f, srrOnly_mono h.reach fun a ⟨f', hf, ha⟩ => List.mem_singleton.1 hf ▸ ha⟩
  have hentry := h.entry ⟨i, hi⟩
  have hset := getElem_set s.faults f ⟨i, hi⟩ { FaultEntry.reset with episode := (s.faults[f]).episode, defn := found }
  simp only [Fin.getElem_fin, List.mem_singleton] at hentry hset ⊢
  rw [hentry, hset]
  by_cases he : (⟨i, hi⟩ : FaultNo) = f
  · subst he
    simp only [if_true, builtEntry_eq]
  · simp only [he, if_false]

theorem exec_builds {s : State} (h : s.Running) (hm : s.sup.mode = .config) {k : TakeRun} {f : FaultNo}
    (hk : s.handler.take = some k) (hf : k.next = some f) (hlast : f.val + 1 < 128) :
    ∃ t, exec .takeDefinitions s = .next t ∧
      t = { s with
        inFlight := t.inFlight, stores := t.stores, srr := t.srr,
        faults := s.faults.set f { FaultEntry.reset with episode := (s.faults[f]).episode, defn := k.found[f] },
        handler := { s.handler with take := some { k with next := some ⟨f.val + 1, hlast⟩ } } } ∧
      FaultViewKept s t f ∧ SrrOnly s t (inFaultView f) ∧
      Raises .takeDefinitions s t (builtDemand k.found[f] f s.faults[f] ++ [.takeDefinitions]) := by
  have hmapped := buildEntry_mapped k.found[f] (s.begin .takeDefinitions) f
  have hx := exec_takeDefinitions_builds h hm hk hf
  rw [State.buildNext, dif_pos hlast] at hx
  generalize (s.begin .takeDefinitions).buildEntry k.found[f] f = b at hmapped hx
  obtain ⟨hfaults, hview, hreach⟩ := entryBuilt_of_mapped hmapped
  have hframe := hmapped.frame
  rw [hfaults] at hframe
  refine ⟨_, hx, ?_, faultViewKept_congr hview rfl rfl (fun _ _ => rfl) fun _ _ => rfl, fun a ha => hreach a ha, ?_⟩
  · rw [hframe]
    rfl
  · rw [Raises, hframe]
    simp [State.setHandler, State.raise, State.begin, builtNotice_eq]

/-! ### The last fault, and the reconnection -/

/-- The slot of a record, told to its fault if that is defined. -/
def toldSlot (faults : Vector FaultEntry 128) (slots : Vector (Option Record) 16) (i : SlotNo) : Option Instr :=
  match slots[i] with
  | some r => if (faults[r.fault]).defn = none then none else some (.slotNotice r.fault (some i) (some false))
  | none => none

def recomputedSlots (slots : Vector (Option Record) 16) : Vector (Option Record) 16 :=
  slots.map fun o => o.map Record.recomputed

/-- The state from which a reconnection hands its change on. -/
def toldState (s : State) : State :=
  (s.setSlots (recomputedSlots s.slots)).raiseAll ((List.finRange 16).filterMap (toldSlot s.faults s.slots))

theorem reconnect_eq (s : State) : s.reconnect = (toldState s).handOn none s.slots := by
  have htold : ∀ i : SlotNo, toldSlot s.faults s.slots i =
      match s.slots[i] with
      | some r => if (s.faults[r.fault]).defn.isSome then some (Instr.slotNotice r.fault (some i) (some false)) else none
      | none => none := fun i => by
    unfold toldSlot
    cases s.slots[i] with
    | none => rfl
    | some r =>
      dsimp only
      by_cases h : (s.faults[r.fault]).defn = none
      · rw [if_pos h, if_neg (by rw [h]; nofun)]
      · rw [if_neg h, if_pos (Option.isSome_iff_ne_none.2 h)]
  unfold toldState State.reconnect
  rw [funext htold]
  rfl

theorem inFaultView_not_eventViews {f : FaultNo} {a : Nat} (h : inFaultView f a) :
    ¬ ((∃ i, inRecordView i a) ∨ inIndexView a) := by
  have hb := inFaultView_bounds h
  unfold inRecordView recordView inIndexView indexView
  rintro (⟨i, h⟩ | h) <;> omega

theorem inEventViews_sub {a : Nat} (h : inEventViews a) : (∃ i, inRecordView i a) ∨ inIndexView a :=
  h.elim .inr fun ⟨i, hi⟩ => .inl ⟨i, inRecordView_of_words hi⟩

theorem exec_builds_last {s : State} (h : s.Running) (hm : s.sup.mode = .config) {k : TakeRun} {f : FaultNo}
    (hk : s.handler.take = some k) (hf : k.next = some f) (hlast : f.val = 127) :
    ∃ t, exec .takeDefinitions s = .next t ∧
      t = { s with
        inFlight := t.inFlight, stores := t.stores, srr := t.srr, slots := t.slots, index := t.index,
        faults := s.faults.set f { FaultEntry.reset with episode := (s.faults[f]).episode, defn := k.found[f] },
        handler := { s.handler with take := some { k with next := none } } } ∧
      t.slots = recomputedSlots s.slots ∧
      FaultViewKept s t f ∧ EventViewsFollow s t ∧ SrrOnly s t (fun a => inFaultView f a ∨ inEventViews a) ∧
      Raises .takeDefinitions s t
        (builtDemand k.found[f] f s.faults[f] ++ (List.finRange 16).filterMap (toldSlot t.faults s.slots) ++
          handedOn s none t.slots ++ [.takeDefinitionsBuildDone]) := by
  have hmapped := buildEntry_mapped k.found[f] (s.begin .takeDefinitions) f
  have hx := exec_takeDefinitions_builds h hm hk hf
  rw [State.buildNext, dif_neg (by omega), reconnect_eq] at hx
  generalize (s.begin .takeDefinitions).buildEntry k.found[f] f = b at hmapped hx
  obtain ⟨hfaults, hview, hreach⟩ := entryBuilt_of_mapped hmapped
  have hframe := hmapped.frame
  rw [hfaults] at hframe
  have hslots : b.slots = s.slots := by
    rw [hframe]
    rfl
  rw [State.setHandler_slots, hslots] at hx
  generalize hu : toldState (b.setHandler { b.handler with take := some { k with next := none } }) = u at hx
  have husrr : u.srr = b.srr := by rw [← hu]; rfl
  have huslots : u.slots = recomputedSlots s.slots := by rw [← hu, ← hslots]; rfl
  have hufaults : u.faults = b.faults := by rw [← hu]; rfl
  have handed := handOn_handed (s0 := s) (s := u) (by rw [← hu]; rw [hframe]; rfl) none
  generalize u.handOn none s.slots = v at hx handed
  obtain ⟨hvframe, hvviews, hvreach⟩ := handed
  have hvslots : v.slots = recomputedSlots s.slots := by rw [hvframe]; exact huslots
  have hvfaults : v.faults = b.faults := by rw [hvframe]; exact hufaults
  refine ⟨_, hx, ?_, hvslots, ?_, ?_, ?_, ?_⟩
  · rw [hvframe, ← hu, hframe]
    rfl
  · refine faultViewKept_congr hview rfl ?_ (fun _ _ => rfl) fun a ha => ?_
    · rw [State.raise_faults, hvfaults]
    · rw [State.raise_srr, hvreach a fun he => inFaultView_not_eventViews ha (inEventViews_sub he), husrr]
  · refine hvviews fun a ha => ?_
    rw [husrr]
    exact hreach a fun hfv => inFaultView_not_eventViews hfv ha
  · intro a ha
    rw [State.raise_srr, hvreach a fun he => ha (.inr he), husrr]
    exact hreach a fun hfv => ha (.inl hfv)
  · have huflight : u.inFlight = b.inFlight ++ (List.finRange 16).filterMap (toldSlot b.faults s.slots) := by
      rw [← hu, ← hslots]
      rfl
    have hbflight : b.inFlight = s.inFlight.erase .takeDefinitions ++ builtDemand k.found[f] f s.faults[f] := by
      rw [hframe, ← builtNotice_eq]
      exact congrArg (s.inFlight.erase .takeDefinitions ++ ·) (List.flatMap_singleton ..)
    rw [Raises, State.raise_inFlight, State.raise_faults, State.raise_slots, hvslots, hvfaults, hvframe]
    simp only [huflight, hbflight, huslots, List.append_assoc]

end Sys2Proof.Requests
end

section
/-! SUPPORT. TAKE DEFINITIONS as dispatched: what the validation counts, the masks and the capacities they fix, and the
repair of an overrun that they make (R22 to R25, R33, R44). -/

namespace Sys2Proof.Requests
open Sys2Proof.Machine

/-! ### What the validation finds (R24) -/

/-- One entry's verdict counted. -/
def countVerdict (verdicts : FaultNo → Verdict) (r : TakeRun) (f : FaultNo) : TakeRun :=
  match verdicts f with
  | .unused => r
  | .invalid => { r with invalid := r.invalid + 1, lowestInvalid := some (r.lowestInvalid.getD f) }
  | .valid _ => { r with valid := r.valid + 1 }

theorem takeCounts_eq (verdicts : FaultNo → Verdict) :
    takeCounts verdicts = (List.finRange 128).foldl (countVerdict verdicts)
      { valid := 0, invalid := 0, lowestInvalid := none, found := Vector.ofFn fun f => (verdicts f).definition,
        next := some 0 } := rfl

def isValid : Verdict → Bool
  | .valid _ => true
  | _ => false

@[simp] theorem isValid_valid (d : Definition) : isValid (.valid d) = true := rfl
@[simp] theorem isValid_invalid : isValid .invalid = false := rfl
@[simp] theorem isValid_unused : isValid .unused = false := rfl

/-- What the counting of the entries `l` adds to the counts before it. -/
theorem foldl_countVerdict (verdicts : FaultNo → Verdict) (l : List FaultNo) (r : TakeRun) :
    l.foldl (countVerdict verdicts) r =
      { r with
        valid := r.valid + (l.filter fun f => isValid (verdicts f)).length
        invalid := r.invalid + (l.filter fun f => decide (verdicts f = .invalid)).length
        lowestInvalid := r.lowestInvalid.or (l.find? fun f => decide (verdicts f = .invalid)) } := by
  induction l generalizing r with
  | nil => simp
  | cons f l ih =>
    rw [List.foldl_cons, ih]
    unfold countVerdict
    cases h : verdicts f with
    | unused => simp [h]
    | invalid => cases r.lowestInvalid <;> simp [h, Nat.add_assoc, Nat.add_comm 1]
    | valid d => simp [h, Nat.add_assoc, Nat.add_comm 1]

theorem takeCounts_counts (verdicts : FaultNo → Verdict) :
    takeCounts verdicts =
      { valid := ((List.finRange 128).filter fun f => isValid (verdicts f)).length
        invalid := ((List.finRange 128).filter fun f => decide (verdicts f = .invalid)).length
        lowestInvalid := (List.finRange 128).find? fun f => decide (verdicts f = .invalid)
        found := Vector.ofFn fun f => (verdicts f).definition, next := some 0 } := by
  rw [takeCounts_eq, foldl_countVerdict]
  simp only [Nat.zero_add, Option.none_or]

theorem found_getElem (verdicts : FaultNo → Verdict) (f : FaultNo) :
    (takeCounts verdicts).found[f] = (verdicts f).definition := by
  rw [takeCounts_counts, Fin.getElem_fin]
  exact Vector.getElem_ofFn ..

/-! ### The masks (R25) -/

theorem queueMaskTaken_eq (n : Nat) :
    queueMaskTaken n = ([15, 31, 63, 127, 255, 511].filter fun m => decide (m ≤ n)).getLastD 15 := by
  unfold queueMaskTaken
  simp only [List.filter_cons, List.filter_nil, decide_eq_true_eq]
  split_ifs <;> rfl

theorem ringMaskTaken_eq (n : Nat) :
    ringMaskTaken n = ([15, 31, 63].filter fun m => decide (m ≤ n)).getLastD 15 := by
  unfold ringMaskTaken
  simp only [List.filter_cons, List.filter_nil, decide_eq_true_eq]
  split_ifs <;> rfl

def queueMask (s : State) (p : Port) : Nat := queueMaskTaken (s.srr.read (aQueueMask p)).toNat
def ringMask (s : State) (p : Port) : Nat := ringMaskTaken (s.srr.read (aRingMask p)).toNat

/-! ### An evaluation of the level conditions (R43) -/

theorem edgeEvent_eq (p : Port) (c : Cause) (last new polarity : Bool) :
    edgeEvent p c last new polarity = if last ≠ new ∧ polarity = last then [.latchRequest p ⟨c, none⟩] else [] := by
  unfold edgeEvent edgeLatches
  cases last <;> cases new <;> cases polarity <;> rfl

theorem evaluateLevels_eq (s : State) (p : Port) :
    s.evaluateLevels p =
      { s with
        queues := s.queues.set p (levelled s p (s.queues.get p)),
        inFlight := s.inFlight ++ levelRequests p (s.srr.read (aPolarity p)) (s.queues.get p)
          (levelled s p (s.queues.get p)) } := by
  unfold State.evaluateLevels
  dsimp only
  rw [edgeEvent_eq, edgeEvent_eq, setLevels_eq]
  rfl

/-! ### A queue's new capacity (R25, R33, R44) -/

/-- Outside CLOSING no drain count falls. -/
theorem drainBy_open {s : State} (h : s.sup.mode ≠ .closing) (p : Port) (n : Nat) : s.drainBy p n = s := if_neg h

/-- Queue `q` with an overrun repaired. -/
def repaired (q : Queue) : Queue := { q with bottom := q.takenTop - BitVec.ofNat 16 q.capacity, occupancy := q.capacity }

def repairWords (p : Port) (q : Queue) : List (Nat × Word) :=
  [(aBottom p, (repaired q).bottom), (aOccupancy p, BitVec.ofNat 16 q.capacity)]

/-- The words that an evaluation reads are none that a repair stores. -/
theorem levelled_repair (s : State) (p : Port) (q q' : Queue) {s' : State} (h : s'.srr = s.srr.writeAll (repairWords p q)) :
    levelled s' p q' = levelled s p q' := by
  have hread : ∀ a ∈ [aEmptyLevel p, aFullLevel p], s'.srr.read a = s.srr.read a := fun a ha => by
    rw [h, Mem.read_writeAll_other]
    simp only [repairWords, List.mem_cons, List.not_mem_nil, or_false] at ha ⊢
    rintro w (rfl | rfl) <;> rcases ha with rfl | rfl <;> simp [aBottom, aOccupancy, aEmptyLevel, aFullLevel]
  exact levelled_congr (hread _ (by simp)) (hread _ (by simp)) q'

theorem read_aPolarity_repair (m : Mem) (p : Port) (q : Queue) :
    (m.writeAll (repairWords p q)).read (aPolarity p) = m.read (aPolarity p) := by
  rw [Mem.read_writeAll_other]
  simp only [repairWords, List.mem_cons, List.not_mem_nil, or_false]
  rintro w (rfl | rfl) <;> cases p <;> dsimp only <;> decide

theorem repairOverrun_eq {s : State} (h : s.sup.mode ≠ .closing) (p : Port) :
    s.repairOverrun p =
      { s with
        queues := s.queues.set p (levelled s p (repaired (s.queues.get p))),
        srr := s.srr.writeAll (repairWords p (s.queues.get p)),
        stores := s.stores ++ repairWords p (s.queues.get p),
        inFlight := s.inFlight ++ .latchRequest p ⟨.overrun, none⟩ ::
          levelRequests p (s.srr.read (aPolarity p)) (s.queues.get p)
            (levelled s p (repaired (s.queues.get p))) } := by
  have hput : s.repairOverrun p = ((((s.setQueue p (repaired (s.queues.get p))).putAll
      (repairWords p (s.queues.get p))).latch p .overrun).evaluateLevels p).drainBy p
        ((repaired (s.queues.get p)).bottom - (s.queues.get p).bottom).toNat := rfl
  rw [hput, State.putAll_eq, evaluateLevels_eq, drainBy_open (by exact h),
    levelled_repair s p (s.queues.get p) _ (by rfl)]
  simp only [State.setQueue, State.latch, State.raise, Both.get_set_same, Both.set_set, read_aPolarity_repair,
    List.append_assoc, List.cons_append, List.nil_append]
  rfl

/-- Queue `p` with the capacity that `mask` gives it, an overrun repaired and the levels evaluated. -/
def takenQueue (s : State) (p : Port) (mask : Nat) : Queue :=
  let q := { s.queues.get p with capacity := mask + 1 }
  levelled s p (if mask + 1 < q.occupancy then repaired q else q)

/-- The words that a repair stores, where the capacity makes one. -/
def overrunWords (s : State) (p : Port) (mask : Nat) : List (Nat × Word) :=
  if mask + 1 < (s.queues.get p).occupancy then repairWords p { s.queues.get p with capacity := mask + 1 } else []

def overrunRequest (s : State) (p : Port) (mask : Nat) : List Instr :=
  if mask + 1 < (s.queues.get p).occupancy then [.latchRequest p ⟨.overrun, none⟩] else []

theorem changeQueueCapacity_eq {s : State} (h : s.sup.mode ≠ .closing) (p : Port) (mask : Nat) :
    s.changeQueueCapacity p (mask + 1) =
      { s with
        queues := s.queues.set p (takenQueue s p mask), srr := s.srr.writeAll (overrunWords s p mask),
        stores := s.stores ++ overrunWords s p mask,
        inFlight := s.inFlight ++ (overrunRequest s p mask ++
          levelRequests p (s.srr.read (aPolarity p)) (s.queues.get p) (takenQueue s p mask)) } := by
  unfold State.changeQueueCapacity overrunWords overrunRequest takenQueue
  dsimp only
  by_cases hover : mask + 1 < (s.queues.get p).occupancy
  · simp only [if_pos hover]
    rw [repairOverrun_eq (by exact h)]
    simp only [State.setQueue, Both.get_set_same, Both.set_set]
    rfl
  · simp only [if_neg hover]
    rw [evaluateLevels_eq]
    simp only [State.setQueue, Both.get_set_same, Both.set_set, Mem.writeAll_nil, List.append_nil, List.nil_append]
    rfl

/-! ### The masks of one port (R4, R25) -/

def maskWords (s : State) (p : Port) : List (Nat × Word) :=
  [(aQueueMask p, BitVec.ofNat 16 (queueMask s p)), (aRingMask p, BitVec.ofNat 16 (ringMask s p))]

/-- Ring `p` with the capacity that its mask gives it. -/
def takenRing (s : State) (p : Port) : Tracker := { s.rings.get p with capacity := ringMask s p + 1, held := 0 }

/-- The words that the masks of port `p` store, a repair with them. -/
def takenWords (s : State) (p : Port) : List (Nat × Word) := maskWords s p ++ overrunWords s p (queueMask s p)

/-- The causes that the masks of port `p` request. -/
def takenRequests (s : State) (p : Port) : List Instr :=
  overrunRequest s p (queueMask s p) ++
    levelRequests p (s.srr.read (aPolarity p)) (s.queues.get p) (takenQueue s p (queueMask s p))

/-- The words that the evaluation of a port's level conditions reads. -/
def levelWords (p : Port) : List Nat := [aEmptyLevel p, aFullLevel p, aPolarity p]

theorem takenQueue_congr {s s' : State} {p : Port} (hq : s'.queues.get p = s.queues.get p)
    (hr : ∀ a ∈ levelWords p, s'.srr.read a = s.srr.read a) (mask : Nat) :
    takenQueue s' p mask = takenQueue s p mask := by
  unfold takenQueue
  rw [hq]
  exact levelled_congr (hr _ (by simp [levelWords])) (hr _ (by simp [levelWords])) _

theorem overrunWords_congr {s s' : State} {p : Port} (hq : s'.queues.get p = s.queues.get p) (mask : Nat) :
    overrunWords s' p mask = overrunWords s p mask := by
  rw [overrunWords, hq, overrunWords]

theorem overrunRequest_congr {s s' : State} {p : Port} (hq : s'.queues.get p = s.queues.get p) (mask : Nat) :
    overrunRequest s' p mask = overrunRequest s p mask := by
  rw [overrunRequest, hq, overrunRequest]

theorem takeMasks_eq {s : State} (h : s.sup.mode ≠ .closing) (p : Port) :
    s.takeMasks p =
      { s with
        queues := s.queues.set p (takenQueue s p (queueMask s p)), rings := s.rings.set p (takenRing s p),
        srr := s.srr.writeAll (takenWords s p), stores := s.stores ++ takenWords s p,
        inFlight := s.inFlight ++ takenRequests s p } := by
  have hput : s.takeMasks p = ((s.putAll (maskWords s p)).changeQueueCapacity p (queueMask s p + 1)).changeRingCapacity p
      (ringMask s p + 1) := rfl
  generalize hu : s.putAll (maskWords s p) = u at hput
  have hread : ∀ a ∈ levelWords p, u.srr.read a = s.srr.read a := fun a ha => by
    rw [← hu, State.putAll_srr, Mem.read_writeAll_other]
    simp only [maskWords, levelWords, List.mem_cons, List.not_mem_nil, or_false] at ha ⊢
    rintro w (rfl | rfl) <;> rcases ha with rfl | rfl | rfl <;> cases p <;> dsimp only <;> decide
  have hqueues : u.queues.get p = s.queues.get p := by rw [← hu, State.putAll_queues]
  have hmode : u.sup.mode ≠ .closing := by rwa [← hu, State.putAll_sup]
  rw [hput, changeQueueCapacity_eq hmode, takenQueue_congr hqueues hread, overrunWords_congr hqueues,
    overrunRequest_congr hqueues, hqueues, hread _ (show aPolarity p ∈ levelWords p by simp [levelWords]), ← hu,
    State.putAll_eq]
  simp only [State.changeRingCapacity, State.setRing, takenWords, takenRequests, Mem.writeAll_append, List.append_assoc]
  rfl

/-! ### The request as dispatched (R23 to R25) -/

/-- A word that a take may store for port `p`. -/
def takeWord (p : Port) (a : Nat) : Prop := a ∈ [aQueueMask p, aRingMask p, aBottom p, aOccupancy p]

theorem takeWord_of_taken {s : State} {p : Port} {w : Nat × Word} (h : w ∈ takenWords s p) : takeWord p w.1 := by
  unfold takenWords maskWords overrunWords repairWords at h
  unfold takeWord
  rcases List.mem_append.1 h with h | h
  · simp only [List.mem_cons, List.not_mem_nil, or_false] at h ⊢
    rcases h with rfl | rfl <;> simp
  · split at h
    · simp only [List.mem_cons, List.not_mem_nil, or_false] at h ⊢
      rcases h with rfl | rfl <;> simp
    · cases h

/-- No word that a take reads or stores for one port is one that it stores for the other. -/
theorem takeWord_other {a : Nat} {p p' : Port} (h : p ≠ p')
    (ha : takeWord p a ∨ a ∈ levelWords p) : ¬ takeWord p' a := by
  unfold takeWord levelWords at *
  simp only [List.mem_cons, List.not_mem_nil, or_false] at *
  rcases ha with (rfl | rfl | rfl | rfl) | (rfl | rfl | rfl) <;> revert h <;> cases p <;> cases p' <;> decide

theorem read_takenWords_other {s : State} {p p' : Port} (h : p ≠ p') (m : Mem) {a : Nat}
    (ha : takeWord p a ∨ a ∈ levelWords p) : (m.writeAll (takenWords s p')).read a = m.read a :=
  Mem.read_writeAll_other fun _ hw he => takeWord_other h ha (he ▸ takeWord_of_taken hw)

/-- What a take makes of port `p` depends on the words and the queue and ring of that port alone. -/
theorem taken_congr {s s' : State} {p : Port} (hq : s'.queues.get p = s.queues.get p)
    (hr : s'.rings.get p = s.rings.get p) (h : ∀ a, takeWord p a ∨ a ∈ levelWords p → s'.srr.read a = s.srr.read a) :
    queueMask s' p = queueMask s p ∧ takenQueue s' p (queueMask s p) = takenQueue s p (queueMask s p) ∧
      takenRing s' p = takenRing s p ∧ takenWords s' p = takenWords s p ∧ takenRequests s' p = takenRequests s p := by
  have hqm : queueMask s' p = queueMask s p := by
    rw [queueMask, h _ (.inl (show takeWord p (aQueueMask p) by simp [takeWord])), queueMask]
  have hrm : ringMask s' p = ringMask s p := by
    rw [ringMask, h _ (.inl (show takeWord p (aRingMask p) by simp [takeWord])), ringMask]
  have htaken := takenQueue_congr hq (fun a ha => h a (.inr ha)) (queueMask s p)
  refine ⟨hqm, htaken, by rw [takenRing, hr, hrm, takenRing], ?_, ?_⟩
  · rw [takenWords, maskWords, hqm, hrm, overrunWords_congr hq, takenWords, maskWords]
  · rw [takenRequests, hqm, overrunRequest_congr hq, hq, htaken,
      h _ (.inr (show aPolarity p ∈ levelWords p by simp [levelWords])), takenRequests]

/-- The request as dispatched, whole. -/
theorem startTake_eq {s : State} (h : s.sup.mode ≠ .closing) :
    s.startTake =
      { s with
        queues := { e := takenQueue s .e (queueMask s .e), a := takenQueue s .a (queueMask s .a) },
        rings := { e := takenRing s .e, a := takenRing s .a },
        srr := s.srr.writeAll (takenWords s .e ++ takenWords s .a),
        stores := s.stores ++ (takenWords s .e ++ takenWords s .a),
        handler := { s.handler with fdtLocked := true, take := some (takeCounts (readDefinition s.srr)) },
        inFlight := s.inFlight ++ (takenRequests s .e ++ takenRequests s .a ++ [.takeDefinitions]) } := by
  have hput : s.startTake = (((s.setHandler { s.handler with
      fdtLocked := true, take := some (takeCounts (readDefinition s.srr)) }).takeMasks .e).takeMasks .a).raise
      .takeDefinitions := rfl
  have hu := takeMasks_eq (s := s.setHandler { s.handler with
      fdtLocked := true, take := some (takeCounts (readDefinition s.srr)) }) h .e
  generalize (s.setHandler { s.handler with
      fdtLocked := true, take := some (takeCounts (readDefinition s.srr)) }).takeMasks .e = u at hput hu
  have hread : ∀ a, takeWord .a a ∨ a ∈ levelWords .a → u.srr.read a = s.srr.read a := fun a ha => by
    rw [hu]
    exact read_takenWords_other (p := .a) (p' := .e) nofun s.srr ha
  obtain ⟨hmask, hqueue, hring, hwords, hrequests⟩ :=
    taken_congr (s := s) (s' := u) (p := .a) (by rw [hu]; rfl) (by rw [hu]; rfl) hread
  rw [hput, takeMasks_eq (by rw [hu]; exact h), hmask, hqueue, hring, hwords, hrequests, hu]
  simp only [State.raise, Mem.writeAll_append, List.append_assoc]
  rfl

/-! ### What stands at the words of one port after it -/

theorem read_writeAll_congr {m m' : Mem} {a : Nat} (h : m.read a = m'.read a) (ws : List (Nat × Word)) :
    (m.writeAll ws).read a = (m'.writeAll ws).read a := by
  induction ws generalizing m m' with
  | nil => exact h
  | cons w ws ih =>
    refine ih ?_
    rw [Mem.read_write, Mem.read_write, h]

/-- At the words of port `p` only the stores for port `p` count. -/
theorem read_takenWords (s : State) (p : Port) {a : Nat} (ha : takeWord p a) :
    (s.srr.writeAll (takenWords s .e ++ takenWords s .a)).read a = (s.srr.writeAll (takenWords s p)).read a := by
  rw [Mem.writeAll_append]
  cases p with
  | e => exact read_takenWords_other (p := .e) (p' := .a) nofun _ (.inl ha)
  | a => exact read_writeAll_congr (read_takenWords_other (p := .a) (p' := .e) nofun _ (.inl ha)) _

theorem read_takenWords_queueMask (s : State) (p : Port) :
    (s.srr.writeAll (takenWords s p)).read (aQueueMask p) = BitVec.ofNat 16 (queueMask s p) := by
  unfold takenWords maskWords overrunWords repairWords
  split <;> simp [Mem.read_write, aQueueMask, aRingMask, aBottom, aOccupancy]

theorem read_takenWords_ringMask (s : State) (p : Port) :
    (s.srr.writeAll (takenWords s p)).read (aRingMask p) = BitVec.ofNat 16 (ringMask s p) := by
  unfold takenWords maskWords overrunWords repairWords
  split <;> simp [Mem.read_write, aQueueMask, aRingMask, aBottom, aOccupancy]

theorem read_takenWords_repaired {s : State} {p : Port} (h : queueMask s p + 1 < (s.queues.get p).occupancy) :
    (s.srr.writeAll (takenWords s p)).read (aBottom p) =
      (s.queues.get p).takenTop - BitVec.ofNat 16 (queueMask s p + 1) ∧
    (s.srr.writeAll (takenWords s p)).read (aOccupancy p) = BitVec.ofNat 16 (queueMask s p + 1) := by
  unfold takenWords maskWords overrunWords repairWords repaired
  rw [if_pos h]
  simp [Mem.read_write, aQueueMask, aRingMask, aBottom, aOccupancy]

theorem read_takenWords_kept {s : State} {p : Port} (h : ¬ queueMask s p + 1 < (s.queues.get p).occupancy) :
    (s.srr.writeAll (takenWords s p)).read (aBottom p) = s.srr.read (aBottom p) ∧
    (s.srr.writeAll (takenWords s p)).read (aOccupancy p) = s.srr.read (aOccupancy p) := by
  unfold takenWords maskWords overrunWords
  rw [if_neg h]
  simp [Mem.read_write, aQueueMask, aRingMask, aBottom, aOccupancy]

end Sys2Proof.Requests
end

section
/-! SUPPORT. The statement about TAKE DEFINITIONS (R22 to R26, R37, R44, R69). -/

namespace Sys2Proof.Requests
open Sys2Proof.Machine

theorem takeDefinitions_refuses {s : State} (h : s.Running) (hm : s.sup.mode ≠ .config) :
    Refuses .takeDefinitions .e s 1 := by
  refine refuses_of_begin ?_
  change execTakeDefinitions s = _
  rw [execTakeDefinitions, State.takeUp_free h.1 h.2, if_pos (by exact hm)]
  rfl

/-- TAKE_DEFINITIONS in CONFIG with no build in progress is the request as dispatched. -/
theorem exec_takeDefinitions_starts {s : State} (h : s.Running) (hm : s.sup.mode = .config)
    (hb : s.handler.building = none) :
    exec .takeDefinitions s = .next
      { s with
        queues := { e := takenQueue s .e (queueMask s .e), a := takenQueue s .a (queueMask s .a) },
        rings := { e := takenRing s .e, a := takenRing s .a },
        srr := s.srr.writeAll (takenWords s .e ++ takenWords s .a), stores := takenWords s .e ++ takenWords s .a,
        handler := { s.handler with fdtLocked := true, take := some (takeCounts (readDefinition s.srr)) },
        inFlight := s.inFlight.erase .takeDefinitions ++
          (takenRequests s .e ++ takenRequests s .a ++ [.takeDefinitions]) } := by
  have hopen : (s.begin .takeDefinitions).sup.mode ≠ .closing := fun hc => Mode.noConfusion (hm.symm.trans hc)
  change execTakeDefinitions s = _
  rw [execTakeDefinitions, State.takeUp_free h.1 h.2, if_neg (by simp [hm]), State.begin_handler, hb]
  dsimp only
  rw [startTake_eq hopen]
  rfl

/-! ### The queue of one port after it -/

theorem takenQueue_repaired {s : State} {p : Port} {mask : Nat} (h : mask + 1 < (s.queues.get p).occupancy) :
    takenQueue s p mask = levelled s p (repaired { s.queues.get p with capacity := mask + 1 }) := by
  rw [takenQueue, if_pos h]

theorem takenQueue_kept {s : State} {p : Port} {mask : Nat} (h : ¬ mask + 1 < (s.queues.get p).occupancy) :
    takenQueue s p mask = levelled s p { s.queues.get p with capacity := mask + 1 } := by
  rw [takenQueue, if_neg h]

/-- Whether or not an overrun is repaired, the capacity is the mask's, and the top and the drain stand. -/
theorem takenQueue_fields (s : State) (p : Port) (mask : Nat) :
    (takenQueue s p mask).capacity = mask + 1 ∧ (takenQueue s p mask).takenTop = (s.queues.get p).takenTop ∧
      (takenQueue s p mask).drain = (s.queues.get p).drain ∧
      (takenQueue s p mask).reported = (s.queues.get p).reported := by
  by_cases h : mask + 1 < (s.queues.get p).occupancy
  · rw [takenQueue_repaired h]
    exact ⟨rfl, rfl, rfl, rfl⟩
  · rw [takenQueue_kept h]
    exact ⟨rfl, rfl, rfl, rfl⟩

/-- OVERRUN is requested just where a repair is made. -/
theorem overrun_mem_takenRequests {s : State} {p p' : Port} :
    .latchRequest p ⟨.overrun, none⟩ ∈ takenRequests s p' ↔
      p = p' ∧ queueMask s p' + 1 < (s.queues.get p').occupancy := by
  have hlevel : ∀ polarity q q', Instr.latchRequest p ⟨.overrun, none⟩ ∉ levelRequests p' polarity q q' :=
    fun polarity q q' h => by
      rcases List.mem_append.1 h with h | h <;> split at h
      · cases List.mem_singleton.1 h
      · cases h
      · cases List.mem_singleton.1 h
      · cases h
  rw [takenRequests, List.mem_append, or_iff_left (hlevel _ _ _), overrunRequest]
  split <;> simp [*]

theorem overrun_mem_raised {s : State} {p : Port} :
    .latchRequest p ⟨.overrun, none⟩ ∈ takenRequests s .e ++ takenRequests s .a ↔
      queueMask s p + 1 < (s.queues.get p).occupancy := by
  rw [List.mem_append, overrun_mem_takenRequests, overrun_mem_takenRequests]
  cases p <;> simp

theorem takenWords_reach {s t : State} (h : t.srr = s.srr.writeAll (takenWords s .e ++ takenWords s .a)) :
    SrrOnly s t fun a => ∃ p, takeWord p a := by
  refine srrOnly_mono (srrOnly_writeAll h) fun a ha => ?_
  obtain ⟨w, hw, rfl⟩ := List.mem_map.1 ha
  rcases List.mem_append.1 hw with hw | hw
  exacts [⟨.e, takeWord_of_taken hw⟩, ⟨.a, takeWord_of_taken hw⟩]

/-- What stands at the queue and the ring of port `p` after the request as dispatched. -/
theorem taken_port {s t : State} {p : Port} (hq : t.queues.get p = takenQueue s p (queueMask s p))
    (hr : t.rings.get p = takenRing s p) (hs : t.srr = s.srr.writeAll (takenWords s .e ++ takenWords s .a)) :
    let q := s.queues.get p
    let q' := t.queues.get p
    let mask := queueMask s p
    q'.capacity = mask + 1 ∧ t.srr.read (aQueueMask p) = BitVec.ofNat 16 mask ∧
      t.rings.get p = { s.rings.get p with capacity := ringMask s p + 1, held := 0 } ∧
      t.srr.read (aRingMask p) = BitVec.ofNat 16 (ringMask s p) ∧ q'.takenTop = q.takenTop ∧ q'.drain = q.drain ∧
      q'.reported = q.reported ∧ LevelsHold s p q' ∧
      (q.occupancy ≤ mask + 1 →
        q'.bottom = q.bottom ∧ q'.occupancy = q.occupancy ∧ t.srr.read (aBottom p) = s.srr.read (aBottom p) ∧
        t.srr.read (aOccupancy p) = s.srr.read (aOccupancy p) ∧
        .latchRequest p ⟨.overrun, none⟩ ∉ takenRequests s .e ++ takenRequests s .a) ∧
      (mask + 1 < q.occupancy →
        q'.bottom = q.takenTop - BitVec.ofNat 16 (mask + 1) ∧ q'.occupancy = mask + 1 ∧
        t.srr.read (aBottom p) = q'.bottom ∧ t.srr.read (aOccupancy p) = BitVec.ofNat 16 (mask + 1) ∧
        .latchRequest p ⟨.overrun, none⟩ ∈ takenRequests s .e ++ takenRequests s .a) := by
  have hread : ∀ a, takeWord p a → t.srr.read a = (s.srr.writeAll (takenWords s p)).read a := fun a ha => by
    rw [hs, read_takenWords s p ha]
  obtain ⟨hcapacity, htop, hdrain, hreported⟩ := takenQueue_fields s p (queueMask s p)
  dsimp only
  rw [hq, hr, hread (aQueueMask p) (by simp [takeWord]), hread (aRingMask p) (by simp [takeWord]),
    hread (aBottom p) (by simp [takeWord]), hread (aOccupancy p) (by simp [takeWord]), read_takenWords_queueMask,
    read_takenWords_ringMask, overrun_mem_raised]
  refine ⟨hcapacity, rfl, rfl, rfl, htop, hdrain, hreported, levelled_levelsHold .., fun hle => ?_, fun hlt => ?_⟩
  · have hnot := Nat.not_lt.2 hle
    obtain ⟨hbottom, hoccupancy⟩ := read_takenWords_kept hnot
    rw [takenQueue_kept hnot]
    exact ⟨rfl, rfl, hbottom, hoccupancy, hnot⟩
  · obtain ⟨hbottom, hoccupancy⟩ := read_takenWords_repaired hlt
    rw [takenQueue_repaired hlt]
    exact ⟨rfl, rfl, hbottom, hoccupancy, hlt⟩

/-- Settles O50: the request as dispatched is one equation, a fault before the last `exec_builds`, and the last
`exec_builds_last`. -/
theorem takeDefinitionsBuildsTheTable : Obligations.TakeDefinitionsBuildsTheTable := by
  intro s h _ _
  refine ⟨takeDefinitions_refuses h, fun hm hb => ?_, fun f k hm hk hf => ⟨exec_builds h hm hk hf, fun hlast => ?_⟩⟩
  · dsimp only
    simp only [← queueMaskTaken_eq, ← ringMaskTaken_eq]
    refine ⟨_, takenRequests s .e ++ takenRequests s .a, exec_takeDefinitions_starts h hm hb, rfl, rfl,
      ⟨_, rfl, ?_, fun f => ?_, ?_, ?_, ?_⟩, fun p => ?_, rfl, takenWords_reach rfl⟩
    · rw [takeCounts_counts]
    · rw [found_getElem]
      rfl
    · rw [takeCounts_counts]
      rfl
    · rw [takeCounts_counts]
    · rw [takeCounts_counts]
    · exact taken_port (by cases p <;> rfl) (by cases p <;> rfl) rfl
  · obtain ⟨t, hx, hframe, hslots, hview, hviews, hreach, hraises⟩ := exec_builds_last h hm hk hf hlast
    refine ⟨t, hx, hframe, fun i => ?_, hview, hviews, hreach, hraises⟩
    rw [hslots]
    exact Vector.getElem_map ..

end Sys2Proof.Requests
end

section
/-! SUPPORT. What a queue does when its bottom or its top moves (R30 to R34, R41 to R45): the words stored, the level
conditions, and the drain mark. -/

namespace Sys2Proof.Intake
open Sys2Proof.Machine Sys2Proof.Requests

/-! ### The drain mark (R41) -/

/-- Queue `q` after its drain count has fallen by `n` in CLOSING; at 0 it has been reported drained. -/
def drained (mode : Mode) (q : Queue) (n : Nat) : Queue :=
  { q with
    drain := if mode = .closing then q.drain - n else q.drain
    reported := q.reported ||
      (decide (mode = .closing) && decide ((if mode = .closing then q.drain - n else q.drain) = 0)) }

theorem drained_open {mode : Mode} (h : mode ≠ .closing) (q : Queue) (n : Nat) : drained mode q n = q := by
  simp [drained, h]

theorem drainedReport_congr {s u : State} {p : Port} (hm : u.sup = s.sup)
    (hr : (u.queues.get p).reported = (s.queues.get p).reported) (n : Nat) :
    drainedReport u p n = drainedReport s p n := by
  rw [drainedReport, hm, hr, drainedReport]

theorem drainBy_eq (s : State) (p : Port) (n : Nat) :
    s.drainBy p n =
      { s with
        queues := s.queues.set p (drained s.sup.mode (s.queues.get p) n),
        inFlight := s.inFlight ++ drainedReport s p (drained s.sup.mode (s.queues.get p) n).drain } := by
  by_cases hm : s.sup.mode = .closing
  · unfold State.drainBy State.reportDrained drained drainedReport
    by_cases hd : (s.queues.get p).drain - n = 0 <;> cases hr : (s.queues.get p).reported <;>
      simp [hm, hd, hr, State.setQueue, State.raise]
  · rw [drainBy_open hm, drained_open hm, Both.set_get, drainedReport, if_neg fun h => hm h.1, List.append_nil]

/-! ### The queue moved, its levels evaluated and its drain count lowered (R33, R34) -/

/-- Queue `p` of `s` once it has become `q`, with its levels evaluated and its drain count lowered by `n`. -/
def moved (s : State) (p : Port) (q : Queue) (n : Nat) : Queue := drained s.sup.mode (levelled s p q) n

theorem moved_levelsHold (s : State) (p : Port) (q : Queue) (n : Nat) : LevelsHold s p (moved s p q n) :=
  levelled_levelsHold s p q

/-- The words of a queue that has moved. -/
def movedWords (p : Port) (q : Queue) : List (Nat × Word) :=
  [(aBottom p, q.bottom), (aOccupancy p, BitVec.ofNat 16 q.occupancy)]

theorem movedWords_reach (m : Mem) (p : Port) (q : Queue) {a : Nat} (ha : ¬ (a = aBottom p ∨ a = aOccupancy p)) :
    (m.writeAll (movedWords p q)).read a = m.read a := by
  refine Mem.read_writeAll_other ?_
  simp only [movedWords, List.mem_cons, List.not_mem_nil, or_false]
  rintro w (rfl | rfl)
  exacts [fun h => ha (.inl h.symm), fun h => ha (.inr h.symm)]

theorem movedWords_bottom (m : Mem) (p : Port) (q : Queue) :
    (m.writeAll (movedWords p q)).read (aBottom p) = q.bottom := by
  simp [movedWords, Mem.read_write, aBottom, aOccupancy]

theorem movedWords_occupancy (m : Mem) (p : Port) (q : Queue) :
    (m.writeAll (movedWords p q)).read (aOccupancy p) = BitVec.ofNat 16 q.occupancy := by
  simp [movedWords]

theorem levelWords_not_moved {p : Port} {a : Nat} (ha : a ∈ levelWords p) : ¬ (a = aBottom p ∨ a = aOccupancy p) := by
  revert a
  cases p <;> decide

/-- The words that an evaluation reads decide what it makes of a queue. -/
theorem levelled_congr_levelWords {s u : State} {p : Port} (h : ∀ a ∈ levelWords p, u.srr.read a = s.srr.read a)
    (q : Queue) : levelled u p q = levelled s p q :=
  levelled_congr (h _ (by simp [levelWords])) (h _ (by simp [levelWords])) q

theorem aPolarity_mem_levelWords (p : Port) : aPolarity p ∈ levelWords p := by simp [levelWords]

/-- A move of the queue to `q`, with `events` raised at the move, the levels evaluated and the drain count lowered. -/
theorem move_eq (s : State) (p : Port) (q : Queue) (events : List Instr) (n : Nat)
    (hr : q.reported = (s.queues.get p).reported) :
    ((((s.setQueue p q).putAll (movedWords p q)).raiseAll events).evaluateLevels p).drainBy p n =
      { s with
        queues := s.queues.set p (moved s p q n), srr := s.srr.writeAll (movedWords p q),
        stores := s.stores ++ movedWords p q,
        inFlight := s.inFlight ++ events ++ levelRequests p (s.srr.read (aPolarity p)) q (moved s p q n) ++
          drainedReport s p (moved s p q n).drain } := by
  generalize hu : ((s.setQueue p q).putAll (movedWords p q)).raiseAll events = u
  rw [State.putAll_eq] at hu
  have hread : ∀ a ∈ levelWords p, u.srr.read a = s.srr.read a := fun a ha => by
    rw [← hu]
    exact movedWords_reach _ _ _ (levelWords_not_moved ha)
  have hqueues : u.queues = s.queues.set p q := by rw [← hu]; rfl
  have hsup : u.sup = s.sup := by rw [← hu]; rfl
  rw [evaluateLevels_eq, drainBy_eq, hqueues]
  dsimp only
  rw [Both.set_set, Both.get_set_same, Both.get_set_same, Both.set_set, levelled_congr_levelWords hread, hsup,
    hread _ (aPolarity_mem_levelWords p),
    drainedReport_congr (s := s) (by rfl) (by rw [Both.get_set_same]; exact hr), ← hu]
  rfl

/-- The repair of an overrun is a move of the queue, with OVERRUN requested (R33). -/
theorem repairOverrun_moves (s : State) (p : Port) :
    s.repairOverrun p =
      let q := s.queues.get p
      let q' := moved s p (repaired q) ((repaired q).bottom - q.bottom).toNat
      { s with
        queues := s.queues.set p q', srr := s.srr.writeAll (movedWords p (repaired q)),
        stores := s.stores ++ movedWords p (repaired q),
        inFlight := s.inFlight ++ .latchRequest p ⟨.overrun, none⟩ ::
          (levelRequests p (s.srr.read (aPolarity p)) q q' ++ drainedReport s p q'.drain) } := by
  refine (move_eq s p (repaired (s.queues.get p)) [.latchRequest p ⟨.overrun, none⟩] _ rfl).trans ?_
  simp only [List.append_assoc, List.cons_append, List.nil_append]
  rfl

/-- The queue with the record at its bottom consumed. -/
def consumed (q : Queue) : Queue := { q with bottom := q.bottom + 1, occupancy := q.occupancy - 1 }

/-- Steps 4 to 6 of a take are a move of the queue (R34). -/
theorem advanceBottom_moves (s : State) (p : Port) :
    s.advanceBottom p =
      let q := s.queues.get p
      let q' := moved s p (consumed q) 1
      { s with
        queues := s.queues.set p q', srr := s.srr.writeAll (movedWords p (consumed q)),
        stores := s.stores ++ movedWords p (consumed q),
        inFlight := s.inFlight ++ (levelRequests p (s.srr.read (aPolarity p)) q q' ++ drainedReport s p q'.drain) } := by
  have hmove := move_eq s p (consumed (s.queues.get p)) [] 1 rfl
  have hnil : ∀ u : State, u.raiseAll [] = u := fun u => by simp [State.raiseAll]
  rw [hnil, List.append_nil, List.append_assoc] at hmove
  exact hmove

end Sys2Proof.Intake
end

section
/-! SUPPORT. TOP_TAKEN and LEVEL_RE_EVALUATION (R32, R33, R41 to R44). -/

namespace Sys2Proof.Intake
open Sys2Proof.Machine Sys2Proof.Requests

/-- The occupancy that a top gives (R32). -/
def occupancyAt (s : State) (p : Port) (top : Word) : Nat := (top - (s.queues.get p).bottom).toNat

/-- A top that leaves the occupancy as it was changes the taken top alone. -/
theorem topTaken_same {s : State} {p : Port} {top : Word} (he : occupancyAt s p top = (s.queues.get p).occupancy)
    (hfit : occupancyAt s p top ≤ (s.queues.get p).capacity) :
    s.topTaken p top = s.setQueue p { s.queues.get p with takenTop := top } := by
  unfold State.topTaken
  exact (if_neg (Nat.not_lt.2 hfit)).trans (if_pos he)

/-- Queue `p` with a new occupancy within the capacity. -/
def counted (s : State) (p : Port) (top : Word) : Queue :=
  levelled s p { s.queues.get p with takenTop := top, occupancy := occupancyAt s p top }

theorem topTaken_counts {s : State} {p : Port} {top : Word} (hne : occupancyAt s p top ≠ (s.queues.get p).occupancy)
    (hfit : occupancyAt s p top ≤ (s.queues.get p).capacity) :
    s.topTaken p top =
      { s with
        queues := s.queues.set p (counted s p top),
        srr := s.srr.write (aOccupancy p) (BitVec.ofNat 16 (occupancyAt s p top)),
        stores := s.stores ++ [(aOccupancy p, BitVec.ofNat 16 (occupancyAt s p top))],
        inFlight := s.inFlight ++
          levelRequests p (s.srr.read (aPolarity p)) (s.queues.get p) (counted s p top) } := by
  have hread : ∀ a ∈ levelWords p, (s.srr.write (aOccupancy p) (BitVec.ofNat 16 (occupancyAt s p top))).read a =
      s.srr.read a := fun a ha => Mem.read_write_other _ _ fun h => levelWords_not_moved ha (.inr h)
  unfold State.topTaken
  refine ((if_neg (Nat.not_lt.2 hfit)).trans (if_neg hne)).trans ?_
  generalize hu : State.put _ _ _ = u
  have husrr : ∀ a ∈ levelWords p, u.srr.read a = s.srr.read a := fun a ha => by
    rw [← hu]
    exact hread a ha
  have hqueue : u.queues = s.queues.set p { s.queues.get p with takenTop := top, occupancy := occupancyAt s p top } := by
    rw [← hu]
    simp [occupancyAt]
  rw [evaluateLevels_eq, hqueue, Both.get_set_same, Both.set_set, levelled_congr_levelWords husrr,
    husrr _ (aPolarity_mem_levelWords p), ← hu]
  rfl

theorem topTaken_repairs {s : State} {p : Port} {top : Word}
    (hover : (s.queues.get p).capacity < occupancyAt s p top) :
    s.topTaken p top = (s.setQueue p { s.queues.get p with takenTop := top }).repairOverrun p := by
  unfold State.topTaken
  exact if_pos hover

theorem exec_topTaken {s : State} (h : s.Running) (p : Port) (top : Word) :
    exec (.topTaken p top) s = .next ((s.begin (.topTaken p top)).topTaken p top) := by
  change execTopTaken p top s = _
  rw [execTopTaken, State.takeUp_free h.1 h.2]

theorem exec_levelReEvaluation {s : State} (h : s.Running) (p : Port) (v : Word) :
    exec (.levelReEvaluation p v) s = .next ((s.begin (.levelReEvaluation p v)).evaluateLevels p) := by
  change execLevelReEvaluation p v s = _
  rw [execLevelReEvaluation, State.takeUp_free h.1 h.2]

/-- Settles O24: a top is one of `topTaken_same`, `topTaken_counts` and `topTaken_repairs`, and an evaluation is one
equation. -/
theorem topTakenCountsOrRepairs : Obligations.TopTakenCountsOrRepairs := by
  refine ⟨fun s p top h => ⟨_, exec_topTaken h p top, ?_⟩, fun s p v h => ⟨_, exec_levelReEvaluation h p v, ?_⟩⟩
  · by_cases hfit : occupancyAt s p top ≤ (s.queues.get p).capacity
    · have hnot : ¬ (s.queues.get p).capacity < (top - (s.queues.get p).bottom).toNat := Nat.not_lt.2 hfit
      by_cases he : occupancyAt s p top = (s.queues.get p).occupancy
      · rw [topTaken_same (by exact he) (by exact hfit)]
        rw [State.setQueue_queues, State.begin_queues, Both.get_set_same]
        exact ⟨rfl, fun _ _ => rfl, rfl, rfl, fun _ _ => ⟨rfl, fun _ => rfl, (List.append_nil _).symm⟩,
          fun hne => absurd he hne, fun hover => absurd hover hnot⟩
      · rw [topTaken_counts (by exact he) (by exact hfit)]
        dsimp only
        rw [State.begin_queues, Both.get_set_same]
        exact ⟨rfl, fun a ha => Mem.read_write_other _ _ fun h => ha (.inr h), rfl, rfl, fun h => absurd h he,
          fun _ _ => ⟨rfl, rfl, rfl, rfl, levelled_levelsHold s p _, Mem.read_write_same ..,
            Mem.read_write_other _ _ (by simp [aBottom, aOccupancy]), rfl⟩, fun hover => absurd hover hnot⟩
    · have hover := Nat.not_le.1 hfit
      rw [topTaken_repairs (by exact hover), repairOverrun_moves]
      dsimp only
      rw [drainedReport_congr (s := s) (by rfl) (by rw [State.setQueue_queues, Both.get_set_same]; rfl),
        State.setQueue_queues, State.begin_queues, Both.get_set_same, Both.set_set, Both.get_set_same]
      exact ⟨rfl, fun a ha => movedWords_reach _ _ _ ha, rfl, rfl, fun _ h => absurd h hfit, fun _ h => absurd h hfit,
        fun _ => ⟨rfl, rfl, moved_levelsHold s p _ _, rfl, rfl, movedWords_bottom .., movedWords_occupancy .., rfl⟩⟩
  · rw [evaluateLevels_eq]
    dsimp only
    rw [State.begin_queues, Both.get_set_same]
    exact ⟨rfl, rfl, levelled_levelsHold s p _, rfl⟩

end Sys2Proof.Intake
end

section
/-! SUPPORT. The validation of a record (R35) and the full time of a stamp (R38). -/

namespace Sys2Proof.Intake
open Sys2Proof.Machine Sys2Proof.Requests

/-! ### Validation -/

theorem takesAsRide_iff {s : State} {p : Port} :
    s.takesAsRide p = true ↔ ¬ (s.sup.mode ≠ .ride ∧ ¬ (s.sup.mode = .closing ∧ 0 < (s.queues.get p).drain)) := by
  unfold State.takesAsRide
  rw [Bool.or_eq_true, Bool.and_eq_true, decide_eq_true_iff, decide_eq_true_iff, decide_eq_true_iff]
  tauto

section Conditions
variable {s : State} {p : Port} {r : Report}

theorem validate_noOutcome (h : r.outcome = none) : s.validate p r = .reject 1 := by
  rw [State.validate, h]

theorem validate_noFault (ho : r.outcome ≠ none) (hf : 128 ≤ r.fault) : s.validate p r = .reject 2 := by
  obtain ⟨o, ho⟩ := Option.ne_none_iff_exists'.1 ho
  rw [State.validate, ho]
  exact dif_neg (Nat.not_lt.2 hf)

theorem validate_undefined (ho : r.outcome ≠ none) (hf : r.fault < 128) (hd : (s.faults[r.fault]).defn = none) :
    s.validate p r = .reject 3 := by
  obtain ⟨o, ho⟩ := Option.ne_none_iff_exists'.1 ho
  rw [State.validate, ho]
  dsimp only
  rw [dif_pos hf, hd]

theorem validate_defined {o : ReportOutcome} {d : Definition} (ho : r.outcome = some o) (hf : r.fault < 128)
    (hd : (s.faults[r.fault]).defn = some d) :
    s.validate p r =
      if d.source ≠ p then .reject 4 else if s.takesAsRide p then .good ⟨r.fault, hf⟩ d o else .reject 5 := by
  rw [State.validate, ho]
  dsimp only
  rw [dif_pos hf, hd]

/-- A good record meets none of the conditions. -/
theorem validate_good_iff {f : FaultNo} {d : Definition} {o : ReportOutcome} :
    s.validate p r = .good f d o ↔
      r.outcome = some o ∧ r.fault = f.val ∧ (s.faults[f]).defn = some d ∧ d.source = p ∧ s.takesAsRide p = true := by
  constructor
  · intro h
    unfold State.validate at h
    split at h
    next => cases h
    next o' ho =>
      split at h
      next hf =>
        split at h
        next => cases h
        next d' hd =>
          split at h
          next => cases h
          next hp =>
            split at h
            next hr =>
              cases h
              exact ⟨ho, rfl, hd, not_not.1 hp, hr⟩
            next => cases h
      next => cases h
  · rintro ⟨ho, hf, hd, hp, hr⟩
    have hlt : r.fault < 128 := hf ▸ f.isLt
    have hfin : (⟨r.fault, hlt⟩ : FaultNo) = f := Fin.ext hf
    rw [validate_defined ho hlt (by rw [← hd, ← hfin]; rfl), if_neg (not_not.2 hp), if_pos hr, hfin]

end Conditions

/-- Settles O23: one lemma for each row of the table, and for the good record. -/
theorem validationFollowsTheTable : Obligations.ValidationFollowsTheTable := by
  intro s p r undefined wrongPort noRide
  refine ⟨validate_noOutcome, validate_noFault, fun ho ⟨hf, hd⟩ => validate_undefined ho hf hd, ?_, ?_, fun f d o => ?_,
    fun q hf ho => ?_⟩
  · rintro ho ⟨hf, d, hd, hp⟩
    obtain ⟨o, ho⟩ := Option.ne_none_iff_exists'.1 ho
    rw [validate_defined ho hf hd, if_pos hp]
  · intro ho hf hu hw hn
    obtain ⟨o, ho⟩ := Option.ne_none_iff_exists'.1 ho
    obtain ⟨d, hd⟩ := Option.ne_none_iff_exists'.1 fun hd => hu ⟨hf, hd⟩
    rw [validate_defined ho hf hd, if_neg fun hp => hw ⟨hf, d, hd, hp⟩, if_neg fun hr => takesAsRide_iff.1 hr hn]
  · rw [validate_good_iff, takesAsRide_iff]
  · obtain ⟨f, o, _, _, _⟩ := r
    obtain ⟨f', o', _, _, _⟩ := q
    cases hf
    cases ho
    rfl

/-! ### The full time of a stamp -/

/-- Stamps repeat every 65536 ticks. -/
theorem toNat_lowWord (t : Time) : (lowWord t).toNat = t.toNat % 65536 := BitVec.toNat_setWidth ..

theorem fullTime_lead {now : Time} {stamp : Word}
    (h : 1 ≤ (stamp - lowWord now).toNat ∧ (stamp - lowWord now).toNat ≤ 255) : fullTime now stamp = now := if_pos h

theorem fullTime_zero {now : Time} {stamp : Word}
    (h : ¬ (1 ≤ (stamp - lowWord now).toNat ∧ (stamp - lowWord now).toNat ≤ 255))
    (hlag : now.toNat < (lowWord now - stamp).toNat) : fullTime now stamp = 0 :=
  (if_neg h).trans (if_neg (Nat.not_le.2 hlag))

theorem toNat_fullTime {now : Time} {stamp : Word}
    (h : ¬ (1 ≤ (stamp - lowWord now).toNat ∧ (stamp - lowWord now).toNat ≤ 255))
    (hlag : (lowWord now - stamp).toNat ≤ now.toNat) :
    (fullTime now stamp).toNat = now.toNat - (lowWord now - stamp).toNat := by
  have heq : fullTime now stamp = now - BitVec.ofNat 32 (lowWord now - stamp).toNat := (if_neg h).trans (if_pos hlag)
  have hsmall := (lowWord now - stamp).isLt
  have hlt := now.isLt
  rw [heq, BitVec.toNat_sub, BitVec.toNat_ofNat]
  omega

/-- The full time is the last time not above now at which the clock showed the stamp. -/
theorem fullTime_largest {now : Time} {stamp : Word}
    (h : ¬ (1 ≤ (stamp - lowWord now).toNat ∧ (stamp - lowWord now).toNat ≤ 255))
    (hlag : (lowWord now - stamp).toNat ≤ now.toNat) :
    (fullTime now stamp).toNat + (lowWord now - stamp).toNat = now.toNat ∧ lowWord (fullTime now stamp) = stamp ∧
      ∀ u : Time, u ≤ now → lowWord u = stamp → u ≤ fullTime now stamp := by
  have ht := toNat_fullTime h hlag
  have hlow := toNat_lowWord now
  have hstamp := stamp.isLt
  have hdiff : (lowWord now - stamp).toNat = (65536 - stamp.toNat + (lowWord now).toNat) % 65536 := BitVec.toNat_sub ..
  refine ⟨by omega, BitVec.eq_of_toNat_eq ?_, fun u hu hs => ?_⟩
  · rw [toNat_lowWord, ht]
    omega
  · have hus := toNat_lowWord u
    rw [hs] at hus
    rw [BitVec.le_def] at hu ⊢
    omega

end Sys2Proof.Intake
end

section
/-! SUPPORT. What a latch request taken at once does to the words of its port (R181, R182). -/

namespace Sys2Proof.Intake
open Sys2Proof.Machine Sys2Proof.Requests

/-- The top cause as the first latched code in the order that the order select chooses. -/
theorem topCause_eq (order latched : Word) :
    topCause order latched = BitVec.ofNat 16
      (((if order.getLsbD 0 then [10, 11, 1, 7, 9, 3, 2, 4, 5, 6, 8] else [1, 2, 3, 4, 5, 6, 7, 8, 9, 10, 11]).find?
        fun c => latched.getLsbD (c - 1)).getD 0) := by
  have hcodes : ∀ l : List Cause,
      (match l.find? fun c => bit latched (causeBit c) with
        | some c => BitVec.ofNat 16 (causeCode c)
        | none => 0) =
      BitVec.ofNat 16 (((l.map causeCode).find? fun c => latched.getLsbD (c - 1)).getD 0) := fun l => by
    rw [List.find?_map]
    change _ = BitVec.ofNat 16 (((l.find? fun c => bit latched (causeBit c)).map causeCode).getD 0)
    cases l.find? fun c => bit latched (causeBit c) <;> rfl
  have horder : (if bit order 0 then flowFirst else faultsFirst).map causeCode =
      if order.getLsbD 0 then [10, 11, 1, 7, 9, 3, 2, 4, 5, 6, 8] else [1, 2, 3, 4, 5, 6, 7, 8, 9, 10, 11] := by
    unfold bit
    split <;> rfl
  rw [← horder]
  exact hcodes _

theorem attentionWords_ne (p : Port) : aTopCause p ≠ aLatched p ∧ aTopCause p ≠ aOrder p ∧ aLatched p ≠ aOrder p := by
  cases p <;> decide

theorem refreshTop_frame (s : State) (p : Port) :
    s.refreshTop p = { s with srr := (s.refreshTop p).srr, stores := (s.refreshTop p).stores } := by
  unfold State.refreshTop
  dsimp only
  split <;> rfl

theorem refreshTop_reach (s : State) (p : Port) : SrrOnly s (s.refreshTop p) (· = aTopCause p) := by
  unfold State.refreshTop
  dsimp only
  split
  · exact fun _ _ => rfl
  · exact srrOnly_put s _ _

/-- A top cause computed anew is the one that the latched set and the order select give. -/
theorem refreshTop_shows (s : State) (p : Port) : TopShows (s.refreshTop p) p := by
  obtain ⟨hlatched, horder, _⟩ := attentionWords_ne p
  rw [TopShows, State.refreshTop_top, refreshTop_reach s p _ hlatched.symm, refreshTop_reach s p _ horder.symm]
  exact topCause_eq ..

theorem setLatched_frame (s : State) (p : Port) (v : Word) :
    s.setLatched p v = { s with srr := (s.setLatched p v).srr, stores := (s.setLatched p v).stores } := by
  unfold State.setLatched
  split
  · rfl
  · rw [refreshTop_frame]
    rfl

theorem setLatched_reach (s : State) (p : Port) (v : Word) :
    SrrOnly s (s.setLatched p v) fun a => a = aLatched p ∨ a = aTopCause p := by
  unfold State.setLatched
  split
  · exact fun _ _ => rfl
  · exact srrOnly_trans (srrOnly_put s _ v) (refreshTop_reach _ p)

theorem setLatched_shows {s : State} {p : Port} {v : Word} (h : s.srr.read (aLatched p) ≠ v) :
    TopShows (s.setLatched p v) p := by
  rw [State.setLatched, if_neg h]
  exact refreshTop_shows _ p

/-- A latch request taken at once: an enabled cause joins the latched set, and with a cause that was not in it the top cause
follows. -/
structure Latched (s t : State) (p : Port) (c : Cause) : Prop where
  frame    : t = { s with srr := t.srr, stores := t.stores }
  reach    : SrrOnly s t fun a => a = aLatched p ∨ a = aTopCause p
  latched  : t.srr.read (aLatched p) =
    if bit (s.enables.get p) (causeBit c) then s.srr.read (aLatched p) ||| causeMask c else s.srr.read (aLatched p)
  top      : bit (s.enables.get p) (causeBit c) = true → bit (s.srr.read (aLatched p)) (causeBit c) = false → TopShows t p
  disabled : bit (s.enables.get p) (causeBit c) = false → t = s

/-- A cause that is not latched is a change of the latched set. -/
theorem or_causeMask_ne {w : Word} {c : Cause} (h : bit w (causeBit c) = false) : w ≠ w ||| causeMask c := by
  intro he
  have hbit : bit (w ||| causeMask c) (causeBit c) = true := by
    unfold bit
    rw [BitVec.getLsbD_or, Bool.or_eq_true]
    right
    cases c <;> rfl
  rw [← he, h] at hbit
  cases hbit

theorem latchNow_latched (s : State) (p : Port) (c : Cause) : Latched s (s.latchNow p c) p c := by
  unfold State.latchNow
  cases he : bit (s.enables.get p) (causeBit c) with
  | false =>
    rw [if_neg Bool.false_ne_true]
    exact ⟨rfl, fun _ _ => rfl, by rw [he]; rfl, fun h => Bool.noConfusion (he.symm.trans h), fun _ => rfl⟩
  | true =>
    rw [if_pos rfl]
    exact ⟨setLatched_frame .., setLatched_reach s p _, by rw [he]; exact State.setLatched_latched ..,
      fun _ h => setLatched_shows (or_causeMask_ne h), fun h => Bool.noConfusion (h.symm.trans he)⟩

end Sys2Proof.Intake
end

section
/-! SUPPORT. The take of a record (R34 to R41): the queue moves on behind what the take has done, and the statements about
a rejected record, a good one, and the time at which it is applied. -/

namespace Sys2Proof.Intake
open Sys2Proof.Machine Sys2Proof.Requests

/-! ### The queue behind a take -/

theorem exec_recordTake_empty {s : State} (h : s.Running) {p : Port} (h0 : (s.queues.get p).occupancy = 0) :
    exec (.recordTake p) s = .next (s.begin (.recordTake p)) := by
  change execRecordTake p s = _
  rw [execRecordTake, State.takeUp_free h.1 h.2, if_pos (by exact h0)]

theorem exec_recordTake {s : State} (h : s.Running) {p : Port} (h0 : (s.queues.get p).occupancy ≠ 0) :
    exec (.recordTake p) s = .next (((s.begin (.recordTake p)).takeBottom p).advanceBottom p) := by
  change execRecordTake p s = _
  rw [execRecordTake, State.takeUp_free h.1 h.2, if_neg (by exact h0)]

/-- What steps 4 to 6 of a take from `s` leave of the state `u` that steps 1 to 3 have left. -/
structure Advanced (s u t : State) (p : Port) : Prop where
  frame : t = { u with queues := s.queues.set p (t.queues.get p), srr := t.srr, stores := t.stores,
                       inFlight := t.inFlight }
  moves : TakeMovesTheQueue s t p
  reach : SrrOnly u t fun a => a = aBottom p ∨ a = aOccupancy p
  raised : t.inFlight = u.inFlight ++ (levelRequests p (s.srr.read (aPolarity p)) (s.queues.get p) (t.queues.get p) ++
    drainedReport s p (t.queues.get p).drain)

theorem advanceBottom_advanced {s u : State} {p : Port} (hqueues : u.queues = s.queues) (hsup : u.sup = s.sup)
    (hread : ∀ a ∈ levelWords p, u.srr.read a = s.srr.read a) : Advanced s u (u.advanceBottom p) p := by
  have hmoved : moved u p (consumed (s.queues.get p)) 1 = moved s p (consumed (s.queues.get p)) 1 := by
    rw [moved, levelled_congr_levelWords hread, hsup, moved]
  have heq := advanceBottom_moves u p
  dsimp only at heq
  rw [hqueues, hmoved, hread _ (aPolarity_mem_levelWords p), drainedReport_congr hsup (by rw [hqueues])] at heq
  generalize u.advanceBottom p = t at heq
  have hq : t.queues.get p = moved s p (consumed (s.queues.get p)) 1 := by rw [heq, Both.get_set_same]
  have hsrr : t.srr = u.srr.writeAll (movedWords p (consumed (s.queues.get p))) := by rw [heq]
  refine ⟨?_, ?_, fun a ha => by rw [hsrr, movedWords_reach _ _ _ ha], by rw [hq, heq]⟩
  · rw [hq, heq]
  · rw [TakeMovesTheQueue, hq, hsrr, movedWords_bottom, movedWords_occupancy]
    exact ⟨rfl, rfl, rfl, rfl, moved_levelsHold s p _ 1, rfl, rfl, rfl, rfl⟩

/-! ### A rejected record (R36) -/

/-- The detail words of a rejected record. -/
def detailWords (p : Port) (bottom : Word) (reason fault : Nat) : List (Nat × Word) :=
  [(aRejectFault p, BitVec.ofNat 16 fault), (aRejectIndex p, bottom), (aRejectReason p, BitVec.ofNat 16 reason)]

/-- The words that a rejection may store. -/
def rejectWord (p : Port) (a : Nat) : Prop :=
  a ∈ [aRejectReason p, aRejectFault p, aRejectIndex p, aLatched p, aTopCause p]

theorem rejectWord_other {p : Port} {a : Nat} (ha : rejectWord p a) :
    a ∉ levelWords p ∧ a ≠ aBottom p ∧ a ≠ aOccupancy p := by
  unfold rejectWord at ha
  revert a
  cases p <;> decide

theorem rejectRecord_kept {s : State} {p : Port} (h : bit (s.srr.read (aLatched p)) 2 = true) (reason fault : Nat) :
    s.rejectRecord p reason fault = s := if_pos h

/-- What a rejection does to the words of its port while REJECT is not latched. -/
structure Rejected (s t : State) (p : Port) (reason fault : Nat) : Prop where
  frame   : t = { s with srr := t.srr, stores := t.stores }
  reach   : SrrOnly s t (rejectWord p)
  details : t.srr.read (aRejectReason p) = BitVec.ofNat 16 reason ∧ t.srr.read (aRejectFault p) = BitVec.ofNat 16 fault ∧
    t.srr.read (aRejectIndex p) = (s.queues.get p).bottom
  latched : t.srr.read (aLatched p) =
    if bit (s.enables.get p) 2 then s.srr.read (aLatched p) ||| 4 else s.srr.read (aLatched p)
  top     : bit (s.enables.get p) 2 = true → TopShows t p
  kept    : bit (s.enables.get p) 2 = false → t.srr.read (aTopCause p) = s.srr.read (aTopCause p)

theorem detailWords_reach (p : Port) (bottom : Word) (reason fault : Nat) :
    ∀ w ∈ detailWords p bottom reason fault, rejectWord p w.1 ∧ w.1 ≠ aLatched p ∧ w.1 ≠ aTopCause p := by
  simp only [detailWords, rejectWord, List.mem_cons, List.not_mem_nil, or_false]
  rintro w (rfl | rfl | rfl) <;> dsimp only <;> cases p <;> decide

theorem read_detailWords (m : Mem) (p : Port) (bottom : Word) (reason fault : Nat) :
    ∀ w ∈ detailWords p bottom reason fault, (m.writeAll (detailWords p bottom reason fault)).read w.1 = w.2 := by
  simp [detailWords, Mem.read_write, aRejectReason, aRejectFault, aRejectIndex]

theorem rejectRecord_rejected {s : State} {p : Port} (h : bit (s.srr.read (aLatched p)) 2 = false)
    (reason fault : Nat) : Rejected s (s.rejectRecord p reason fault) p reason fault := by
  generalize hwords : detailWords p (s.queues.get p).bottom reason fault = words
  have hreach := detailWords_reach p (s.queues.get p).bottom reason fault
  have hdetail := read_detailWords s.srr p (s.queues.get p).bottom reason fault
  rw [hwords] at hreach hdetail
  have heq : s.rejectRecord p reason fault = (s.putAll words).latchNow p .reject := by
    rw [← hwords]
    exact if_neg fun hl => Bool.noConfusion (h.symm.trans hl)
  have hold : ∀ a ∈ [aLatched p, aTopCause p], (s.putAll words).srr.read a = s.srr.read a := fun a ha => by
    rw [State.putAll_srr, Mem.read_writeAll_other]
    rintro w hw rfl
    obtain ⟨_, hl, ht⟩ := hreach w hw
    simp only [List.mem_cons, List.not_mem_nil, or_false] at ha
    exact ha.elim hl ht
  obtain ⟨hframe, hlreach, hlatched, htop, hdisabled⟩ := latchNow_latched (s.putAll words) p .reject
  rw [← heq] at hframe hlreach hlatched htop hdisabled
  generalize s.rejectRecord p reason fault = t at hframe hlreach hlatched htop hdisabled
  rw [hold _ (by simp), State.putAll_enables] at hlatched
  rw [hold _ (by simp), State.putAll_enables] at htop
  rw [State.putAll_enables] at hdisabled
  have hstored : ∀ w ∈ words, t.srr.read w.1 = w.2 := fun w hw => by
    obtain ⟨_, hl, ht⟩ := hreach w hw
    rw [hlreach w.1 (not_or.2 ⟨hl, ht⟩), State.putAll_srr, hdetail w hw]
  refine ⟨?_, fun a ha => ?_, ⟨?_, ?_, ?_⟩, hlatched, fun he => htop he h, fun he => ?_⟩
  · rw [hframe, State.putAll_eq]
  · rw [hlreach a, State.putAll_srr, Mem.read_writeAll_other]
    · rintro w hw rfl
      exact ha (hreach w hw).1
    · rintro (rfl | rfl) <;> exact ha (by simp [rejectWord])
  · exact hstored (aRejectReason p, BitVec.ofNat 16 reason) (by simp [← hwords, detailWords])
  · exact hstored (aRejectFault p, BitVec.ofNat 16 fault) (by simp [← hwords, detailWords])
  · exact hstored (aRejectIndex p, (s.queues.get p).bottom) (by simp [← hwords, detailWords])
  · rw [hdisabled he, hold _ (by simp)]

theorem takeBottom_reject {s : State} {p : Port} {reason : Nat}
    (h : s.validate p (readReport s.srr (recordAddress p (s.queues.get p).capacity (s.queues.get p).bottom)) =
      .reject reason) :
    s.takeBottom p = s.rejectRecord p reason
      (readReport s.srr (recordAddress p (s.queues.get p).capacity (s.queues.get p).bottom)).fault := by
  unfold State.takeBottom
  dsimp only
  rw [h]

/-- A top cause that shows the latched set does so behind stores elsewhere. -/
theorem topShows_congr {s t : State} {p : Port} (h : TopShows s p)
    (hread : ∀ a, rejectWord p a ∨ a = aOrder p → t.srr.read a = s.srr.read a) : TopShows t p := by
  unfold TopShows at h ⊢
  rw [hread _ (.inr rfl), hread (aTopCause p) (.inl (by simp [rejectWord])),
    hread (aLatched p) (.inl (by simp [rejectWord]))]
  exact h

/-- The queue moves on behind a rejection, of which nothing is left but words of the attention area. -/
theorem advanceBottom_rejected {s u : State} {p : Port}
    (hu : u = { s.begin (.recordTake p) with srr := u.srr, stores := u.stores }) (hreach : SrrOnly s u (rejectWord p)) :
    let t := u.advanceBottom p
    t = { s with inFlight := t.inFlight, stores := t.stores, srr := t.srr, queues := s.queues.set p (t.queues.get p) } ∧
      TakeMovesTheQueue s t p ∧
      Raises (.recordTake p) s t
        (levelRequests p (s.srr.read (aPolarity p)) (s.queues.get p) (t.queues.get p) ++
          drainedReport s p (t.queues.get p).drain) ∧
      SrrOnly u t fun a => a = aBottom p ∨ a = aOccupancy p := by
  obtain ⟨hframe, hmoves, hmoved, hraised⟩ := advanceBottom_advanced (s := s) (u := u) (p := p) (by rw [hu]; rfl)
    (by rw [hu]; rfl) fun a ha => hreach a fun hr => (rejectWord_other hr).1 ha
  dsimp only
  generalize u.advanceBottom p = t at hframe hmoves hmoved hraised
  refine ⟨?_, hmoves, ?_, hmoved⟩
  · refine hframe.trans ?_
    rw [hu]
    rfl
  · rw [Raises, hraised, hu]
    rfl

/-- Settles O25: the take is a rejection, which reaches the words of the attention area at most, and the queue moves on
behind it. -/
theorem rejectedRecordIsConsumed : Obligations.RejectedRecordIsConsumed := by
  intro s p reason h
  refine ⟨exec_recordTake_empty h, ?_⟩
  intro h0 q r hv
  refine ⟨_, exec_recordTake h h0, ?_⟩
  have htake : (s.begin (.recordTake p)).takeBottom p = (s.begin (.recordTake p)).rejectRecord p reason r.fault :=
    takeBottom_reject hv
  rw [htake]
  cases hl : bit (s.srr.read (aLatched p)) 2 with
  | true =>
    rw [rejectRecord_kept (by exact hl)]
    obtain ⟨hframe, hmoves, hraises, hreach⟩ :=
      advanceBottom_rejected (s := s) (p := p) (u := s.begin (.recordTake p)) rfl fun _ _ => rfl
    exact ⟨hframe, hmoves, hraises, fun _ => hreach, fun hn => Bool.noConfusion (hl.symm.trans hn)⟩
  | false =>
    obtain ⟨hu, hrejected, ⟨hreason, hfault, hindex⟩, hlatched, htop, hkept⟩ :=
      rejectRecord_rejected (s := s.begin (.recordTake p)) (p := p) (by exact hl) reason r.fault
    generalize (s.begin (.recordTake p)).rejectRecord p reason r.fault = u
      at hu hrejected hreason hfault hindex hlatched htop hkept
    obtain ⟨hframe, hmoves, hraises, hreach⟩ := advanceBottom_rejected (s := s) hu hrejected
    have hread : ∀ a, rejectWord p a ∨ a = aOrder p → (u.advanceBottom p).srr.read a = u.srr.read a := by
      rintro a (ha | rfl)
      · exact hreach a (not_or.2 (rejectWord_other ha).2)
      · exact hreach _ (by cases p <;> decide)
    refine ⟨hframe, hmoves, hraises, fun hn => Bool.noConfusion (hn.symm.trans hl), fun _ =>
      ⟨?_, ?_, ?_, ?_, ?_, fun he => topShows_congr (htop he) hread, fun he => ?_⟩⟩
    · refine srrOnly_mono (srrOnly_trans (s := s) hrejected hreach) fun a ha => ?_
      rcases ha with ha | rfl | rfl
      · exact List.mem_cons_of_mem _ (List.mem_cons_of_mem _ ha)
      · simp
      · simp
    · rw [hread _ (.inl (by simp [rejectWord])), hreason]
    · rw [hread _ (.inl (by simp [rejectWord])), hfault]
    · rw [hread _ (.inl (by simp [rejectWord])), hindex]
      rfl
    · rw [hread _ (.inl (by simp [rejectWord])), hlatched]
      rfl
    · rw [hread _ (.inl (by simp [rejectWord])), hkept he]
      rfl

/-! ### A good record (R39) -/

/-- The report that a good record brings to its fault's entry. -/
def reported (s : State) (p : Port) (f : FaultNo) (d : Definition) (o : ReportOutcome) : FaultEntry × List Instr :=
  let r := readReport s.srr (recordAddress p (s.queues.get p).capacity (s.queues.get p).bottom)
  applyReport f d o r.count r.deviation (fullTime s.sup.rideClock r.stamp) s.faults[f]

theorem takeBottom_good {s : State} {p : Port} {f : FaultNo} {d : Definition} {o : ReportOutcome}
    (h : s.validate p (readReport s.srr (recordAddress p (s.queues.get p).capacity (s.queues.get p).bottom)) =
      .good f d o) :
    s.takeBottom p = (s.updateFault f (reported s p f d o).1).raiseAll (reported s p f d o).2 := by
  unfold State.takeBottom
  dsimp only
  rw [h]
  dsimp only
  rw [State.applyReport, reported]

/-- What the take of a good record comes to. -/
structure GoodTake (s t : State) (p : Port) (f : FaultNo) (d : Definition) (o : ReportOutcome) : Prop where
  frame  : t = { s with inFlight := t.inFlight, stores := t.stores, srr := t.srr, faults := t.faults,
                        queues := s.queues.set p (t.queues.get p) }
  moves  : TakeMovesTheQueue s t p
  reach  : SrrOnly s t fun a => a = aBottom p ∨ a = aOccupancy p ∨ inFaultView f a
  view   : FaultViewKept s t f
  entry  : t.faults = s.faults.set f (reported s p f d o).1
  raises : Raises (.recordTake p) s t
    ((reported s p f d o).2 ++ levelRequests p (s.srr.read (aPolarity p)) (s.queues.get p) (t.queues.get p) ++
      drainedReport s p (t.queues.get p).drain)

theorem queueWord_bounds {p : Port} {a : Nat} (h : a ∈ levelWords p ∨ a = aBottom p ∨ a = aOccupancy p) : a < 0x200 := by
  cases p <;> simp [levelWords, aEmptyLevel, aFullLevel, aPolarity, aBottom, aOccupancy, controlBase, serviceBase] at h <;> omega

theorem recordTake_good {s : State} (h : s.Running) {p : Port} {f : FaultNo} {d : Definition} {o : ReportOutcome}
    (h0 : (s.queues.get p).occupancy ≠ 0)
    (hv : s.validate p (readReport s.srr (recordAddress p (s.queues.get p).capacity (s.queues.get p).bottom)) =
      .good f d o) :
    ∃ t, exec (.recordTake p) s = .next t ∧ GoodTake s t p f d o := by
  refine ⟨_, exec_recordTake h h0, ?_⟩
  rw [takeBottom_good (s := s.begin (.recordTake p)) (by exact hv)]
  have hframe := State.updateFault_frame (s.begin (.recordTake p)) f (reported s p f d o).1
  have hview := updateFault_viewKept (s.begin (.recordTake p)) f (reported s p f d o).1
  have hreach := State.updateFault_read (s.begin (.recordTake p)) f (reported s p f d o).1
  change GoodTake s ((((s.begin (.recordTake p)).updateFault f (reported s p f d o).1).raiseAll
    (reported s p f d o).2).advanceBottom p) p f d o
  generalize (s.begin (.recordTake p)).updateFault f (reported s p f d o).1 = v at hframe hview hreach
  have hout : ∀ a, a ∈ levelWords p ∨ a = aBottom p ∨ a = aOccupancy p → ¬ inFaultView f a := fun a ha hf => by
    have := queueWord_bounds ha
    have := inFaultView_bounds hf
    omega
  obtain ⟨htframe, hmoves, htreach, hraised⟩ := advanceBottom_advanced (s := s) (u := v.raiseAll (reported s p f d o).2)
    (p := p) (by rw [hframe]; rfl) (by rw [hframe]; rfl) fun a ha => hreach a (hout a (.inl ha))
  generalize (v.raiseAll (reported s p f d o).2).advanceBottom p = t at htframe hmoves htreach hraised
  have hfaults : t.faults = v.faults := by rw [htframe]; rfl
  refine ⟨?_, hmoves, ?_, ?_, ?_, ?_⟩
  · refine htframe.trans ?_
    rw [hfaults, hframe]
    rfl
  · refine srrOnly_mono (srrOnly_trans (fun a ha => hreach a ha) htreach) fun a ha => ?_
    tauto
  · exact faultViewKept_congr hview rfl (by rw [hfaults]) (fun _ _ => rfl) fun a ha =>
      htreach a fun hq => hout a (.inr hq) ha
  · rw [hfaults, hframe]
    rfl
  · rw [Raises, hraised, List.append_assoc, State.raiseAll_inFlight, hframe]
    simp only [List.append_assoc]
    rfl

/-- Settles O26, by `recordTake_good`. -/
theorem goodRecordIsApplied : Obligations.GoodRecordIsApplied := by
  intro s p f d o h h0 q r hv
  obtain ⟨t, hx, hframe, hmoves, hreach, hview, hentry, hraises⟩ := recordTake_good h h0 hv
  exact ⟨t, hx, hframe, hmoves, hreach, hview, hentry, hraises⟩

/-- Settles O22: the arithmetic of the full time, the reading of a sample, and the take of a good record. -/
theorem stampsGiveFullTimes : Obligations.StampsGiveFullTimes := by
  refine ⟨fun now stamp => ⟨fullTime_lead, fullTime_largest, fullTime_zero⟩, fun s p k => rfl, ?_⟩
  intro s p f d o h h0 q record r hv
  obtain ⟨t, hx, hgood⟩ := recordTake_good h h0 hv
  refine ⟨t, hx, ?_⟩
  rw [hgood.entry, getElem_set, if_pos rfl]
  rfl

end Sys2Proof.Intake
end

section
/-! SUPPORT. The restart of a queue and the reports that queues are drained (R45, R47, R148). -/

namespace Sys2Proof.Intake
open Sys2Proof.Machine Sys2Proof.Requests

/-- The words that a restart of queue `p` zeroes. -/
def restartWords (p : Port) : List Nat :=
  [aTop p, aBottom p, aOccupancy p, aRejectReason p, aRejectFault p, aRejectIndex p]

/-- Queue `p` after its restart: emptied, and in CLOSING drained. -/
def restarted (s : State) (p : Port) : Queue := drained s.sup.mode (emptiedQueue s p) (s.queues.get p).drain

theorem restartWords_not_level {p : Port} {a : Nat} (ha : a ∈ levelWords p) : a ∉ restartWords p := by
  revert a
  cases p <;> decide

theorem exec_intakeRestart {s : State} (h : s.Running) (p : Port) :
    exec (.intakeRestart p) s = .next
      { s with
        queues := s.queues.set p (restarted s p), srr := s.srr.writeAll (zeros (restartWords p)),
        stores := zeros (restartWords p),
        inFlight := s.inFlight.erase (.intakeRestart p) ++ drainedReport s p (restarted s p).drain } := by
  change execIntakeRestart p s = _
  rw [execIntakeRestart, State.takeUp_free h.1 h.2]
  change Host.Outcome.next (((((s.begin (.intakeRestart p)).setQueue p
    { s.queues.get p with takenTop := 0, bottom := 0, occupancy := 0 }).putAll (zeros (restartWords p))).setLevels
      p).drainBy p (s.queues.get p).drain) = _
  generalize hu : ((s.begin (.intakeRestart p)).setQueue p
    { s.queues.get p with takenTop := 0, bottom := 0, occupancy := 0 }).putAll (zeros (restartWords p)) = u
  rw [State.putAll_eq] at hu
  have hread : ∀ a ∈ levelWords p, u.srr.read a = s.srr.read a := fun a ha => by
    rw [← hu]
    exact (read_writeAll_zeros ..).trans (if_neg (restartWords_not_level ha))
  have hqueues : u.queues = s.queues.set p { s.queues.get p with takenTop := 0, bottom := 0, occupancy := 0 } := by
    rw [← hu]
    rfl
  have hsup : u.sup = s.sup := by rw [← hu]; rfl
  rw [setLevels_eq, drainBy_eq, State.setQueue_queues, hqueues, Both.set_set, Both.get_set_same, Both.get_set_same,
    Both.set_set, levelled_congr_levelWords hread, State.setQueue_sup, hsup,
    drainedReport_congr (s := s) (by exact hsup) (by rw [State.setQueue_queues, Both.get_set_same]; rfl), ← hu]
  rfl

theorem exec_queueDrained {s : State} (h : s.Running) (p : Port) :
    exec (.queueDrained p) s = .next
      { s with
        sup := { s.sup with drained := s.sup.drained.set p true }, stores := [],
        inFlight := s.inFlight.erase (.queueDrained p) ++
          if s.sup.mode = .closing ∧ s.sup.drained.get p = false ∧
            s.sup.drained.set p true = { e := true, a := true } then [.fcuRideEndEvent] else [] } := by
  change execQueueDrained p s = _
  rw [execQueueDrained, State.takeUp_free h.1 h.2]
  dsimp only
  have hboth : ∀ d : Both Bool, d = { e := true, a := true } ↔ d.e = true ∧ d.a = true := fun d => by
    cases d
    exact Both.mk.injEq .. ▸ Iff.rfl
  by_cases hc : s.sup.mode = .closing ∧ s.sup.drained.get p = false ∧ s.sup.drained.set p true = { e := true, a := true }
  · rw [if_pos hc]
    rw [hboth] at hc
    exact congrArg Host.Outcome.next (if_pos hc)
  · rw [if_neg hc, List.append_nil]
    rw [hboth] at hc
    exact congrArg Host.Outcome.next (if_neg hc)

/-- In CLOSING a restart ends the drain (R47). -/
theorem restarted_drain (s : State) (p : Port) :
    (restarted s p).drain = if s.sup.mode = .closing then 0 else (s.queues.get p).drain := by
  change (if s.sup.mode = .closing then (s.queues.get p).drain - (s.queues.get p).drain else (s.queues.get p).drain) = _
  rw [Nat.sub_self]

theorem restarted_reported (s : State) (p : Port) :
    (restarted s p).reported = ((s.queues.get p).reported || decide (s.sup.mode = .closing)) := by
  change ((s.queues.get p).reported || (decide (s.sup.mode = .closing) && decide ((restarted s p).drain = 0))) = _
  rw [restarted_drain]
  by_cases hm : s.sup.mode = .closing <;> simp [hm]

theorem restarted_levelsHold (s : State) (p : Port) : LevelsHold s p (restarted s p) :=
  levelled_levelsHold s p { s.queues.get p with takenTop := 0, bottom := 0, occupancy := 0 }

/-- Settles O27: a restart and a report are one equation each. -/
theorem restartEmptiesTheQueueAndDrainIsReported : Obligations.RestartEmptiesTheQueueAndDrainIsReported := by
  intro s p h
  refine ⟨⟨_, exec_intakeRestart h p, ?_⟩, _, exec_queueDrained h p, rfl, rfl⟩
  dsimp only
  rw [Both.get_set_same]
  refine ⟨rfl, rfl, rfl, rfl, rfl, restarted_levelsHold s p, restarted_drain s p, restarted_reported s p,
    fun a ha => (read_writeAll_zeros ..).trans (if_neg ha), fun a ha => (read_writeAll_zeros ..).trans (if_pos ha), ?_⟩
  rw [Raises, restarted_drain, drainedReport, drainedReport]
  by_cases hm : s.sup.mode = .closing <;> simp [hm]

end Sys2Proof.Intake
end

section
/-! SUPPORT. The hold of a part reset (R130, R160): the write in flight is cut off, and the transactions are abandoned. -/

namespace Sys2Proof.PartReset
open Sys2Proof.Machine Sys2Proof.Requests

/-! ### What a canonical memory reads (R1) -/

theorem read_of_mem {m : Mem} (h : m.wf = true) {c : Nat × Word} (hc : c ∈ m) : m.read c.1 = c.2 := by
  have hnodup : (m.map (·.1)).Nodup := by
    rw [List.Nodup, List.pairwise_map]
    exact (Mem.wf_iff.1 h).1.imp Nat.ne_of_lt
  unfold Mem.read
  cases hf : m.find? fun d => d.1 == c.1 with
  | none => exact absurd (List.find?_eq_none.1 hf c hc) (by simp)
  | some d =>
    have he : d.1 = c.1 := by simpa using List.find?_some hf
    rw [List.inj_on_of_nodup_map hnodup (List.mem_of_find?_eq_some hf) hc he]

theorem read_of_not_mem {m : Mem} {a : Nat} (h : ∀ c ∈ m, c.1 ≠ a) : m.read a = 0 := by
  have hf : m.find? (fun d => d.1 == a) = none := List.find?_eq_none.2 fun c hc => by simpa using h c hc
  rw [Mem.read, hf]

/-- Each word of a torn image is the new one where it had been written, and the old one where not (R160). -/
theorem read_tornImage (n : Nat) {words i : Nat} (old new : Mem) (h : i < words) :
    (tornImage n words old new).read i = if Config.tornWritten n i then new.read i else old.read i := by
  generalize hv : (if Config.tornWritten n i then new.read i else old.read i) = v
  by_cases h0 : v = 0
  · rw [read_of_not_mem, h0]
    rintro ⟨j, w⟩ hc rfl
    obtain ⟨j', _, hc⟩ := List.mem_filterMap.1 hc
    dsimp only at hc
    rw [Option.ite_none_left_eq_some] at hc
    obtain ⟨hne, hc⟩ := hc
    cases hc
    exact hne (hv.trans h0)
  · refine read_of_mem (tornImage_canonical ..).1 (c := (i, v)) (List.mem_filterMap.2 ⟨i, List.mem_range.2 h, ?_⟩)
    dsimp only
    rw [hv, if_neg h0]

/-! ### The images of the store -/

theorem image_setImage (t : Store) (x y : ImageId) (m : Mem) :
    (t.setImage x m).image y = if y = x then m else t.image y := by
  cases x with
  | header => cases y <;> rfl
  | slot i =>
    cases y with
    | header => rfl
    | slot j =>
      unfold Store.setImage Store.image
      dsimp only
      rw [getElem_set]
      simp only [ImageId.slot.injEq]

theorem setImage_frame (t : Store) (x : ImageId) (m : Mem) :
    t.setImage x m = { t with header := (t.setImage x m).header, images := (t.setImage x m).images } := by
  cases x <;> rfl

/-- The images of `t` are those of `s`, but that the image of the write in flight may be torn (R130, R160). -/
def ImagesCut (s : State) (t : Store) : Prop :=
  ∀ x : ImageId,
    ((∀ w, s.store.writing = some w → w.image ≠ x) → t.image x = s.store.image x) ∧
    (∀ w, s.store.writing = some w → w.image = x → ∀ a, a < imageLength x →
      (t.image x).read a = w.content.read a ∨ (t.image x).read a = (s.store.image x).read a)

theorem imagesCut_same {s : State} {t : Store} (h : ∀ x, t.image x = s.store.image x) : ImagesCut s t :=
  fun x => ⟨fun _ => h x, fun _ _ _ _ _ => .inr (by rw [h x])⟩

/-- What cutting off the write in flight does. -/
structure WriteCut (s t : State) : Prop where
  frame     : t = { s with tears := t.tears, store := { s.store with
    header := t.store.header, images := t.store.images, writing := none } }
  images    : ImagesCut s t.store
  canonical : ∀ x, t.store.image x = s.store.image x ∨ (t.store.image x).Canonical (imageLength x)
  idle      : s.store.writing = none → t.store.header = s.store.header ∧ t.store.images = s.store.images

theorem cutWrite_cut (s : State) : WriteCut s s.cutWrite := by
  unfold State.cutWrite
  cases hw : s.store.writing with
  | none =>
    refine ⟨?_, imagesCut_same fun _ => rfl, fun _ => .inl rfl, fun _ => ⟨rfl, rfl⟩⟩
    dsimp only
    rw [← hw]
  | some w =>
    dsimp only
    generalize hm : tornImage s.tears (imageLength w.image) (s.store.image w.image) w.content = m
    have himage : ∀ x, ({ s.store.setImage w.image m with writing := none } : Store).image x =
        if x = w.image then m else s.store.image x := fun x => by
      rw [← image_setImage]
      cases x <;> rfl
    refine ⟨?_, fun x => ⟨fun h => ?_, fun w' hw' hx a ha => ?_⟩, fun x => ?_, fun h => nomatch hw.symm.trans h⟩
    · rw [setImage_frame]
    · rw [himage, if_neg fun hx => h w hw hx.symm]
    · rw [hw] at hw'
      cases hw'
      subst hx
      rw [himage, if_pos rfl, ← hm, read_tornImage _ _ _ ha]
      split
      exacts [.inl rfl, .inr rfl]
    · rw [himage]
      split
      · rename_i hx
        rw [hx, ← hm]
        exact .inr (tornImage_canonical ..)
      · exact .inl rfl

/-! ### The transactions (R6, R194) -/

/-- A transaction that is abandoned already stays so. -/
theorem abandon_abandon (x : PortIf) : x.abandon.abandon.link = x.abandon.link := by
  unfold PortIf.abandon
  dsimp only
  split <;> rfl

theorem exec_resetHold (s : State) :
    exec .resetHold s = .next (if s.held then s.begin .resetHold else (s.begin .resetHold).hold) := rfl

/-- What the hold comes to (R130). -/
theorem resetHold_holds (s : State) :
    ∃ t, exec .resetHold s = .next t ∧
      (s.held = true → t = s.begin .resetHold) ∧
      (s.held = false →
        t = { s with
          inFlight := s.inFlight.erase .resetHold, stores := [], tears := t.tears, held := true, ports := t.ports,
          lamps := { s.lamps with engine := { s.lamps.engine with output := false },
                                  abs := { s.lamps.abs with output := false } },
          store := { s.store with header := t.store.header, images := t.store.images, writing := none } } ∧
        (∀ p : Port, t.ports.get p =
          { s.ports.get p with
            link := if (s.ports.get p).link = .deselected then .deselected else .abandoned }) ∧
        ImagesCut s t.store) := by
  refine ⟨_, exec_resetHold s, fun h => if_pos h, fun h => ?_⟩
  obtain ⟨hframe, himages, _, _⟩ := cutWrite_cut (s.begin .resetHold)
  rw [if_neg (by rw [h]; nofun), State.hold]
  generalize (s.begin .resetHold).cutWrite = u at hframe himages
  refine ⟨?_, fun p => by cases p <;> rfl, himages⟩
  rw [hframe]
  rfl

end Sys2Proof.PartReset
end

section
/-! SUPPORT. The end of START-UP (R30, R132): the control area and the words that stand at 0 are published, and the mode word
behind them. -/

namespace Sys2Proof.PartReset
open Sys2Proof.Machine Sys2Proof.Requests

/-- Of words stored at different addresses each reads back. -/
theorem read_writeAll_of_nodup {ws : List (Nat × Word)} (h : (ws.map (·.1)).Nodup) (m : Mem) {w : Nat × Word}
    (hw : w ∈ ws) : (m.writeAll ws).read w.1 = w.2 := by
  induction ws generalizing m with
  | nil => cases hw
  | cons x ws ih =>
    obtain ⟨hx, hws⟩ := List.nodup_cons.1 h
    rw [Mem.writeAll_cons]
    rcases List.mem_cons.1 hw with rfl | hw
    · rw [Mem.read_writeAll_other, Mem.read_write_same]
      exact fun y hy he => hx (List.mem_map.2 ⟨y, hy, he⟩)
    · exact ih hws _ hw

/-- The words of the control area but the mode word, as they are published (R132). -/
def controlWords (s : State) : List (Nat × Word) :=
  [(0x0000, Config.partCode), (0x0001, Config.revision), (aClockLow, lowWord s.sup.rideClock),
    (aClockHigh, highWord s.sup.rideClock), (aRideNumber, s.sup.rideNumber),
    (aEngineRun, BitVec.ofNat 16 s.sup.engineRun), (aMaxSpeed, s.sup.maxSpeed),
    (aMoving, BitVec.ofNat 16 (flag s.sup.moving)), (aAbsReady, BitVec.ofNat 16 (flag s.sup.absReady)),
    (aDirty, BitVec.ofNat 16 s.store.dirty.length), (aWriter, s.store.writerWord),
    (aSupply, BitVec.ofNat 16 (flag s.store.supplyLow)), (aLamp .engine, s.lamps.engine.word),
    (aLamp .abs, s.lamps.abs.word)]

/-- The words of port `p` that stand at 0 at the end of START-UP (R132). -/
def standing (p : Port) : List Nat :=
  [aTop p, aBottom p, aQueueMask p, aEmptyLevel p, aFullLevel p, aOccupancy p, aHead p, aRingMask p, aRingState p,
    aEnable p, aPolarity p, aOrder p, aLatched p, aTopCause p, aRejectReason p, aRejectFault p, aRejectIndex p]

theorem publishedAtEnd_eq (s : State) :
    s.publishedAtEnd = controlWords s ++ zeros (standing .e ++ standing .a) := by
  rw [zeros_append, ← List.append_assoc]
  rfl

theorem controlWords_addresses (s : State) :
    (controlWords s).map (·.1) = [0, 1, 3, 4, 5, 6, 7, 8, 14, 9, 10, 11, 12, 13] := rfl

theorem standing_bounds {p : Port} {a : Nat} (h : a ∈ standing p) : 0x100 ≤ a := by
  revert a
  cases p <;> decide

theorem mem_standing_iff {a : Nat} : a ∈ standing .e ++ standing .a ↔ ∃ p, a ∈ standing p := by
  rw [List.mem_append]
  constructor
  · rintro (h | h)
    exacts [⟨.e, h⟩, ⟨.a, h⟩]
  · rintro ⟨p, h⟩
    cases p
    exacts [.inl h, .inr h]

/-- The SRR at the end of START-UP. -/
def endMemory (s : State) : Mem := (s.srr.writeAll s.publishedAtEnd).write aMode 1

theorem read_endMemory_control (s : State) : ∀ w ∈ controlWords s, (endMemory s).read w.1 = w.2 := fun w hw => by
  have haddress := List.mem_map_of_mem (f := (·.1)) hw
  have hlow : w.1 ≤ 14 ∧ w.1 ≠ aMode := by
    rw [controlWords_addresses] at haddress
    revert haddress
    generalize w.1 = a
    revert a
    decide
  rw [endMemory, Mem.read_write_other _ _ hlow.2, publishedAtEnd_eq, Mem.writeAll_append, read_writeAll_zeros, if_neg]
  · exact read_writeAll_of_nodup (by rw [controlWords_addresses]; decide) _ hw
  · rw [mem_standing_iff]
    rintro ⟨p, h⟩
    have := standing_bounds h
    omega

theorem read_endMemory_standing (s : State) {p : Port} {a : Nat} (h : a ∈ standing p) : (endMemory s).read a = 0 := by
  have hne : a ≠ aMode := by
    have := standing_bounds h
    rw [aMode_eq]
    omega
  rw [endMemory, Mem.read_write_other _ _ hne, publishedAtEnd_eq, Mem.writeAll_append, read_writeAll_zeros,
    if_pos (mem_standing_iff.2 ⟨p, h⟩)]

theorem endMemory_reach (s : State) {a : Nat} (h : ¬ (a ≤ 0x000E ∨ ∃ p, a ∈ standing p)) :
    (endMemory s).read a = s.srr.read a := by
  obtain ⟨hlow, hstanding⟩ := not_or.1 h
  rw [endMemory, Mem.read_write_other _ _ (by rw [aMode_eq]; omega), publishedAtEnd_eq, Mem.writeAll_append,
    read_writeAll_zeros, if_neg (mem_standing_iff.not.2 hstanding), Mem.read_writeAll_other]
  rintro w hw rfl
  have haddress := List.mem_map_of_mem (f := (·.1)) hw
  rw [controlWords_addresses] at haddress
  revert haddress hlow
  generalize w.1 = a
  simp only [List.mem_cons, List.not_mem_nil, or_false]
  omega

/-- The intake's state of queue `p` as the mode leaves START-UP (R30). -/
def settledQueue (s : State) (p : Port) : Queue := levelled s p Queue.reset

theorem settleIntake_eq (s : State) :
    s.settleIntake = { s with queues := { e := settledQueue s .e, a := settledQueue s .a } } := rfl

/-- The end of START-UP, whole. -/
def started (s : State) : State :=
  { s with
    inFlight := s.inFlight.erase .loadComplete ++ [.modeNotice], stores := s.publishedAtEnd ++ [(aMode, 1)],
    srr := endMemory s,
    queues := { e := settledQueue (s.putAll s.publishedAtEnd) .e, a := settledQueue (s.putAll s.publishedAtEnd) .a },
    sup := { s.sup with mode := .config }, handler := { s.handler with fdtLocked := false } }

theorem exec_loadComplete {s : State} (h : s.held = false) (hm : s.sup.mode = .startUp) :
    exec .loadComplete s = .next (started s) := by
  change execLoadComplete s = _
  rw [execLoadComplete, State.take_free h, if_pos (by exact hm), settleIntake_eq, State.changeMode_eq, if_neg nofun,
    if_neg (by rw [State.putAll_sup]; exact fun hr => Mode.noConfusion (hm.symm.trans hr.1)), State.putAll_eq]
  unfold started
  rw [State.putAll_eq]
  simp only [List.append_nil]
  rfl

theorem loadComplete_idle {s : State} (h : s.held = false) (hm : s.sup.mode ≠ .startUp) :
    ChangesNothing .loadComplete s := by
  change execLoadComplete s = _
  rw [execLoadComplete, State.take_free h, if_neg (by exact hm)]

/-- The level words are the same behind the mode word. -/
theorem settledQueue_started (s : State) (p : Port) : (started s).queues.get p = settledQueue (started s) p := by
  have hread : ∀ a ∈ levelWords p, (s.putAll s.publishedAtEnd).srr.read a = (started s).srr.read a := fun a ha => by
    rw [State.putAll_srr]
    refine (Mem.read_write_other _ _ ?_).symm
    revert a
    cases p <;> decide
  have hq : (started s).queues.get p = settledQueue (s.putAll s.publishedAtEnd) p := by cases p <;> rfl
  rw [hq]
  exact levelled_congr (hread _ (by simp [levelWords])) (hread _ (by simp [levelWords])) _

/-- With both rings QUIET the words published at the end of START-UP show the state (R2, R4, R132). -/
theorem started_controlArea {s : State} (hquiet : ∀ p : Port, (s.rings.get p).state = .quiet) :
    (started s).ControlArea := by
  have hread : ∀ w ∈ controlWords s, (started s).srr.read w.1 = w.2 := read_endMemory_control s
  have hzero : ∀ {p : Port} {a : Nat}, a ∈ standing p → (started s).srr.read a = 0 := read_endMemory_standing s
  simp only [controlWords, List.forall_mem_cons] at hread
  obtain ⟨_, _, hlow, hhigh, hride, hengine, hspeed, hmoving, habs, hdirty, hwriter, hsupply, hlampe, hlampa, _⟩ := hread
  exact {
    mode := Mem.read_write_same ..
    clock := ⟨hlow, hhigh⟩
    ride := hride
    engine := hengine
    speed := hspeed
    moving := hmoving
    absReady := habs
    dirty := hdirty
    writer := hwriter
    supply := hsupply
    lamps := fun k => match k with
      | .engine => hlampe
      | .abs => hlampa
    queues := fun p => by
      rw [hzero (p := p) (by simp [standing]), hzero (p := p) (by simp [standing]), settledQueue_started]
      exact ⟨rfl, rfl⟩
    rings := fun p => by
      have hring : (started s).rings = s.rings := rfl
      rw [hzero (p := p) (by simp [standing]), hring, hquiet]
      rfl }

end Sys2Proof.PartReset
end

section
/-! SUPPORT. What the load judges of the images (R154, R162, R164, R165): which record is kept for a fault, the ride number,
and what one slot's image gives. -/

namespace Sys2Proof.PartReset
open Sys2Proof.Machine Sys2Proof.Requests

/-! ### Duplicates (R164) -/

/-- Of two records of one fault in two slots exactly one is kept before the other. -/
theorem not_keptBefore_iff {q r : Record} {j i : SlotNo} (h : j ≠ i) :
    keptBefore q j r i = false ↔
      q.lastRide < r.lastRide ∨ (q.lastRide = r.lastRide ∧
        (q.lastConfirm < r.lastConfirm ∨ (q.lastConfirm = r.lastConfirm ∧ i < j))) := by
  unfold keptBefore
  by_cases hride : q.lastRide = r.lastRide
  · rw [if_neg (not_not.2 hride), hride]
    by_cases hconfirm : q.lastConfirm = r.lastConfirm
    · rw [if_neg (not_not.2 hconfirm), hconfirm, decide_eq_false_iff_not]
      simp only [BitVec.lt_irrefl, false_or, true_and, Fin.lt_def]
      rw [← Fin.val_ne_iff] at h
      omega
    · rw [if_pos hconfirm, decide_eq_false_iff_not]
      simp only [BitVec.lt_irrefl, false_or, true_and, hconfirm, false_and, or_false, BitVec.lt_def]
      rw [← BitVec.toNat_inj] at hconfirm
      omega
  · rw [if_pos hride, decide_eq_false_iff_not]
    simp only [hride, false_and, or_false, BitVec.lt_def]
    rw [← BitVec.toNat_inj] at hride
    omega

/-- Whether a record of slot `j` puts the record `r` of slot `i` out (R164). -/
def outdoes (images : SlotNo → SlotImage) (r : Record) (i j : SlotNo) : Bool :=
  match images j with
  | .record q => decide (q.fault = r.fault) && keptBefore q j r i
  | _ => false

theorem survivor_record {images : SlotNo → SlotImage} {i : SlotNo} {r : Record} (h : images i = .record r) :
    survivor images i = if (List.finRange 16).any (outdoes images r i) then none else some r := by
  unfold survivor
  rw [h]
  rfl

theorem survivor_eq_none {images : SlotNo → SlotImage} {i : SlotNo} (h : ∀ r, images i ≠ .record r) :
    survivor images i = none := by
  unfold survivor
  split
  · rename_i r hr
    exact absurd hr (h r)
  · rfl

/-- No record puts itself out. -/
theorem outdoes_self {images : SlotNo → SlotImage} {i : SlotNo} {r : Record} (h : images i = .record r) :
    outdoes images r i i = false := by
  unfold outdoes keptBefore
  rw [h]
  simp

theorem kept_iff_not_outdone {images : SlotNo → SlotImage} {i : SlotNo} {r : Record} (h : images i = .record r) :
    Kept images i r ↔ ∀ j, outdoes images r i j = false := by
  constructor
  · rintro ⟨_, hkept⟩ j
    by_cases hj : j = i
    · rw [hj, outdoes_self h]
    · unfold outdoes
      split
      · rename_i q hq
        by_cases hf : q.fault = r.fault
        · rw [(not_keptBefore_iff hj).2 (hkept j q hj hq hf), Bool.and_false]
        · rw [decide_eq_false hf, Bool.false_and]
      · rfl
  · intro hnone
    refine ⟨h, fun j q hj hq hf => (not_keptBefore_iff hj).1 ?_⟩
    have hj := hnone j
    unfold outdoes at hj
    rw [hq] at hj
    simpa [hf] using hj

/-- The record that survives in a slot is the one that is kept there. -/
theorem survivor_iff {images : SlotNo → SlotImage} {i : SlotNo} {r : Record} :
    survivor images i = some r ↔ Kept images i r := by
  have hrecord : survivor images i = some r ∨ Kept images i r → ∃ q, images i = .record q := by
    rintro (h | h)
    · by_contra hn
      rw [survivor_eq_none fun q hq => hn ⟨q, hq⟩] at h
      cases h
    · exact ⟨r, h.1⟩
  constructor
  · intro h
    obtain ⟨q, hq⟩ := hrecord (.inl h)
    rw [survivor_record hq, Option.ite_none_left_eq_some] at h
    obtain ⟨hnone, hqr⟩ := h
    cases hqr
    refine (kept_iff_not_outdone hq).2 fun j => ?_
    simpa using (List.any_eq_false.1 (Bool.eq_false_of_not_eq_true hnone)) j (List.mem_finRange j)
  · intro h
    rw [survivor_record h.1, if_neg]
    rw [List.any_eq_true]
    rintro ⟨j, _, hj⟩
    rw [(kept_iff_not_outdone h.1).1 h] at hj
    cases hj

theorem survivor_none_iff {images : SlotNo → SlotImage} {i : SlotNo} :
    survivor images i = none ↔ ∀ r, ¬ Kept images i r := by
  simp only [Option.eq_none_iff_forall_ne_some, ne_eq, survivor_iff]

/-- One record is kept for a fault. -/
theorem kept_unique {images : SlotNo → SlotImage} {i j : SlotNo} {r q : Record} (hi : Kept images i r)
    (hj : Kept images j q) (hf : r.fault = q.fault) : i = j := by
  by_contra hne
  have h1 := hi.2 j q (Ne.symm hne) hj.1 hf.symm
  have h2 := hj.2 i r hne hi.1 hf
  simp only [BitVec.lt_def, ← BitVec.toNat_inj, Fin.lt_def] at h1 h2
  omega

theorem kept_record_unique {images : SlotNo → SlotImage} {i : SlotNo} {r q : Record} (hr : Kept images i r)
    (hq : Kept images i q) : r = q := by
  have h := hr.1.symm.trans hq.1
  cases h
  rfl

/-! ### The ride number (R162) -/

/-- The later of a ride number and that of the record kept in a slot. -/
def laterRide (images : SlotNo → SlotImage) (n : Word) (i : SlotNo) : Word :=
  match survivor images i with
  | some r => if n < r.lastRide then r.lastRide else n
  | none => n

theorem highestRide_eq (images : SlotNo → SlotImage) :
    highestRide images = (List.finRange 16).foldl (laterRide images) 0 := rfl

theorem foldl_laterRide (images : SlotNo → SlotImage) (l : List SlotNo) (n : Word) :
    let t := l.foldl (laterRide images) n
    n ≤ t ∧ (∀ i ∈ l, ∀ r, Kept images i r → r.lastRide ≤ t) ∧ (t = n ∨ ∃ i r, Kept images i r ∧ r.lastRide = t) := by
  induction l generalizing n with
  | nil => exact ⟨BitVec.le_refl _, nofun, .inl rfl⟩
  | cons i l ih =>
    obtain ⟨hle, hall, hfrom⟩ := ih (laterRide images n i)
    rw [List.foldl_cons]
    generalize l.foldl (laterRide images) (laterRide images n i) = t at hle hall hfrom
    have hstep : n ≤ laterRide images n i ∧ (∀ r, Kept images i r → r.lastRide ≤ laterRide images n i) ∧
        (laterRide images n i = n ∨ ∃ r, Kept images i r ∧ r.lastRide = laterRide images n i) := by
      unfold laterRide
      cases hs : survivor images i with
      | none => exact ⟨BitVec.le_refl _, fun r hr => absurd hr (survivor_none_iff.1 hs r), .inl rfl⟩
      | some q =>
        have hq := survivor_iff.1 hs
        have hone : ∀ r, Kept images i r → r = q := fun r hr => kept_record_unique hr hq
        dsimp only
        split
        · rename_i hlt
          exact ⟨BitVec.le_of_lt hlt, fun r hr => by rw [hone r hr]; exact BitVec.le_refl _, .inr ⟨q, hq, rfl⟩⟩
        · rename_i hnot
          exact ⟨BitVec.le_refl _, fun r hr => by rw [hone r hr]; exact BitVec.not_lt.1 hnot, .inl rfl⟩
    obtain ⟨hn, hhere, hwhich⟩ := hstep
    refine ⟨BitVec.le_trans hn hle, fun j hj r hr => ?_, ?_⟩
    · rcases List.mem_cons.1 hj with rfl | hj
      · exact BitVec.le_trans (hhere r hr) hle
      · exact hall j hj r hr
    · rcases hfrom with hfrom | hfrom
      · rcases hwhich with hwhich | ⟨r, hr, hride⟩
        · exact .inl (hfrom.trans hwhich)
        · exact .inr ⟨i, r, hr, hride.trans hfrom.symm⟩
      · exact .inr hfrom

theorem le_highestRide {images : SlotNo → SlotImage} {i : SlotNo} {r : Record} (h : Kept images i r) :
    r.lastRide ≤ highestRide images := by
  obtain ⟨_, hall, _⟩ := foldl_laterRide images (List.finRange 16) 0
  rw [highestRide_eq]
  exact hall i (List.mem_finRange i) r h

theorem highestRide_from (images : SlotNo → SlotImage) :
    highestRide images = 0 ∨ ∃ i r, Kept images i r ∧ r.lastRide = highestRide images := by
  obtain ⟨_, _, hfrom⟩ := foldl_laterRide images (List.finRange 16) 0
  rwa [highestRide_eq]

/-! ### What a record image gives (R165) -/

theorem bits_lt (w : Word) (lo n : Nat) : bits w lo n < 2 ^ n := Nat.mod_lt _ (Nat.two_pow_pos n)

/-- A record as an image gives it: without a frame, an open episode or an awaited capture, and within its ranges. -/
structure FromImage (r : Record) : Prop where
  frame      : r.frame = none
  episode    : r.episodeFlag = false
  awaited    : r.awaited = none
  occurrence : 1 ≤ r.occurrence ∧ r.occurrence ≤ 255
  age        : r.age ≤ 250
  clean      : r.clean ≤ 7

theorem fromImage_of_record {m : Mem} {st : RecordState} {r : Record} (h : recordOfImage m st = some r) :
    FromImage r := by
  unfold recordOfImage at h
  dsimp only at h
  split at h
  · rename_i hc
    obtain ⟨_, _, hocc, hage, _⟩ := hc
    have h8 := bits_lt (m.read 2) 0 8
    have h3 := bits_lt (m.read 3) 0 3
    cases h
    exact ⟨rfl, rfl, rfl, ⟨Nat.one_le_iff_ne_zero.2 hocc, Nat.le_of_lt_succ h8⟩, hage, Nat.le_of_lt_succ h3⟩
  · cases h

theorem readSlotImage_fromImage {m : Mem} {r : Record} (h : readSlotImage m = .record r) : FromImage r := by
  unfold readSlotImage at h
  split at h
  · cases h
  · split at h
    next => split at h <;> cases h
    next =>
      split at h
      next hr =>
        cases h
        exact fromImage_of_record hr
      next => cases h
    next =>
      split at h
      next hr =>
        cases h
        exact fromImage_of_record hr
      next => cases h
    next => cases h

/-- The state that a record without an open episode has (R117). -/
theorem computedState_fromImage {r : Record} (h : FromImage r) :
    r.computedState = if r.lampLatch then .active else .stored := by
  unfold Record.computedState
  rw [h.episode, Bool.false_or]

/-- A sound frame part as the load sets it. -/
structure FrameFromImage (i : SlotNo) (r : Record) (c : Capture) : Prop where
  holder : c.holder = .record i
  state  : c.state = if r.frameStatus = .complete then .complete else .short
  wf     : c.Wf

theorem captureOfImage_frame {m : Mem} {i : SlotNo} {r : Record} {c : Capture} (h : captureOfImage m i r = some c) :
    FrameFromImage i r c := by
  unfold captureOfImage at h
  dsimp only at h
  rw [Option.ite_none_right_eq_some] at h
  obtain ⟨⟨_, _, _, hpre, hpost⟩, hc⟩ := h
  have hpremax := bits_lt (m.read (framePart + 3)) 0 4
  have hpostmax := bits_lt (m.read (framePart + 3)) 8 4
  cases hc
  refine ⟨rfl, rfl, hpre, Nat.le_of_lt_succ hpremax, hpost, Nat.le_of_lt_succ hpostmax, fun h => ?_⟩
  dsimp only at h
  split at h <;> cases h

theorem captureOfImage_closed {i : SlotNo} {r : Record} {c : Capture} (h : FrameFromImage i r c) : c.state ≠ .opened := by
  rw [h.state]
  split <;> nofun

end Sys2Proof.PartReset
end

section
/-! SUPPORT. The load of one slot (R163 to R166): what its image comes to, and the one change of the state that it makes. -/

namespace Sys2Proof.PartReset
open Sys2Proof.Machine Sys2Proof.Requests

/-! ### What the image of a slot comes to -/

/-- What the load makes of the image of one slot: whether the image is marked dirty, whether it is damage, and the record
and the frame that it gives. -/
structure SlotLoad where
  mark   : Bool
  damage : Bool
  record : Option Record
  frame  : Option Capture

/-- The load of a record that is kept (R165, R166). -/
def recordLoad (m : Mem) (i : SlotNo) (r : Record) : SlotLoad :=
  if r.frameStatus.framed then
    match captureOfImage m i r with
    | some c =>
      { mark := decide (r.computedState ≠ r.state) || decide (r.frameStatus = .capturing), damage := false,
        record := some { r.recomputed with frameStatus := captureFrameStatus c.state }, frame := some c }
    | none =>
      { mark := true, damage := true, frame := none,
        record := some { r.recomputed with frameStatus := .missed, preShort := false, gap := false } }
  else { mark := decide (r.computedState ≠ r.state), damage := false, record := some r.recomputed, frame := none }

def slotLoad (images : SlotNo → SlotImage) (m : Mem) (i : SlotNo) : SlotLoad :=
  match images i with
  | .bad => { mark := true, damage := true, record := none, frame := none }
  | .erased => { mark := false, damage := false, record := none, frame := none }
  | .record _ =>
    match survivor images i with
    | some r => recordLoad m i r
    | none => { mark := true, damage := false, record := none, frame := none }

/-- The record with the buffer that its frame is given. -/
def SlotLoad.placed (L : SlotLoad) (b : BufNo) : Option Record :=
  match L.frame with
  | some _ => L.record.map fun r => { r with frame := some b }
  | none => L.record

/-! ### The change of the state -/

/-- The store with an image marked, and the damaged latch set, where asked for. -/
def noted (t : Store) (x : ImageId) (mark damage : Bool) : Store :=
  { t with dirty := if mark = true ∧ x ∉ t.dirty then t.dirty ++ [x] else t.dirty, damaged := t.damaged || damage }

theorem marked_eq (t : Store) (x : ImageId) : t.marked x = noted t x true false := by
  unfold Store.marked noted
  by_cases h : x ∈ t.dirty <;> simp [h]

theorem noted_none (t : Store) (x : ImageId) : noted t x false false = t := by simp [noted]

theorem mem_noted {t : Store} {x y : ImageId} {mark damage : Bool} :
    y ∈ (noted t x mark damage).dirty ↔ y ∈ t.dirty ∨ (mark = true ∧ y = x) := by
  unfold noted
  dsimp only
  split
  next h => rw [List.mem_append, List.mem_singleton, and_iff_right h.1]
  next h =>
    refine ⟨.inl, fun hy => hy.elim id ?_⟩
    rintro ⟨hm, rfl⟩
    exact not_not.1 fun hn => h ⟨hm, hn⟩

theorem nodup_noted {t : Store} (h : t.dirty.Nodup) (x : ImageId) (mark damage : Bool) :
    (noted t x mark damage).dirty.Nodup := by
  unfold noted
  dsimp only
  split
  next hx => exact List.nodup_append'.2 ⟨h, List.nodup_singleton x, List.disjoint_singleton.2 hx.2⟩
  next => exact h

/-- A mark made again changes nothing. -/
theorem noted_noted (t : Store) (x : ImageId) (mark mark' damage damage' : Bool) :
    noted (noted t x mark damage) x mark' damage' = noted t x (mark || mark') (damage || damage') := by
  unfold noted
  by_cases h : x ∈ t.dirty <;> cases mark <;> simp [h, Bool.or_assoc]

/-- The words stored when a view is rewritten (R14). -/
def rewriteWords (srr : Mem) (counter : Nat) (ws : List (Nat × Word)) : List (Nat × Word) :=
  (counter, srr.read counter + 1) :: ws ++
    [(counter, ((srr.write counter (srr.read counter + 1)).writeAll ws).read counter + 1)]

theorem rewrite_putAll (s : State) (counter : Nat) (ws : List (Nat × Word)) :
    s.rewrite counter ws = s.putAll (rewriteWords s.srr counter ws) := State.rewrite_eq ..

/-- The words stored when a buffer is filled with the frame part of an image (R166): the samples, and then the header. -/
def fillWords (srr m : Mem) (b : BufNo) (c : Capture) : List (Nat × Word) :=
  loadedSamples m b c ++
    rewriteWords (srr.writeAll (loadedSamples m b c)) (bufferBase b + 7) (wordsAt (bufferBase b) (headerWords (some c)))

/-- The state with the image of slot `i` loaded, a frame going to buffer `b`. -/
def loadInto (s : State) (m : Mem) (i : SlotNo) (b : BufNo) (L : SlotLoad) : State :=
  { s with
    store := noted s.store (.slot i) L.mark L.damage, slots := s.slots.set i (L.placed b),
    pool := match L.frame with | some c => s.pool.set b (some c) | none => s.pool
    srr := match L.frame with | some c => s.srr.writeAll (fillWords s.srr m b c) | none => s.srr
    stores := match L.frame with | some c => s.stores ++ fillWords s.srr m b c | none => s.stores }

theorem fillBuffer_eq (s : State) (m : Mem) (b : BufNo) (c : Capture) :
    ((s.setBuffer b (some c)).putAll (loadedSamples m b c)).publishHeader b =
      { s with pool := s.pool.set b (some c), srr := s.srr.writeAll (fillWords s.srr m b c),
               stores := s.stores ++ fillWords s.srr m b c } := by
  have hb : ((s.setBuffer b (some c)).putAll (loadedSamples m b c)).pool[b] = some c := by
    rw [State.putAll_pool, State.setBuffer_pool, getElem_set, if_pos rfl]
  rw [State.publishHeader, hb, rewrite_putAll, State.putAll_srr, State.setBuffer_srr, State.putAll_eq, State.putAll_eq,
    fillWords, Mem.writeAll_append, ← List.append_assoc]
  rfl

theorem markLoaded_eq (s : State) (x : ImageId) : s.markLoaded x = s.setStore (noted s.store x true false) := by
  rw [State.markLoaded, marked_eq]

theorem markLoaded_setDamaged (s : State) (x : ImageId) :
    (s.markLoaded x).setDamaged = s.setStore (noted s.store x true true) := by
  rw [markLoaded_eq]
  simp [State.setDamaged, State.setStore, noted]

/-- The mark of a record whose state the load changes. -/
theorem markChanged_eq (s : State) (x : ImageId) (a b : RecordState) :
    (if a = b then s else s.markLoaded x) = s.setStore (noted s.store x (decide (a ≠ b)) false) := by
  by_cases h : a = b
  · rw [if_pos h, decide_eq_false (not_not.2 h), noted_none]
    rfl
  · rw [if_neg h, decide_eq_true h, markLoaded_eq]

theorem loadRecord_eq {s : State} (m : Mem) (i : SlotNo) (r : Record) {b : BufNo}
    (hb : s.findBuffer Option.isNone = some b) :
    s.loadRecord i m r = loadInto s m i b (recordLoad m i r) := by
  unfold State.loadRecord recordLoad
  dsimp only
  rw [markChanged_eq]
  by_cases hframed : r.frameStatus.framed = true
  · rw [if_pos hframed, if_pos hframed]
    cases hc : captureOfImage m i r with
    | none =>
      dsimp only
      rw [markLoaded_setDamaged, State.setStore_store, noted_noted, Bool.or_true, Bool.or_true]
      rfl
    | some c =>
      dsimp only
      have hfree : (s.setStore (noted s.store (.slot i) (decide (r.recomputed.state ≠ r.state)) false)).findBuffer
          Option.isNone = some b := hb
      rw [hfree]
      dsimp only
      rw [fillBuffer_eq]
      by_cases hcap : r.frameStatus = .capturing
      · rw [if_pos hcap, decide_eq_true hcap, Bool.or_true, markLoaded_eq]
        refine (congrArg (State.setStore _)
          (noted_noted s.store (.slot i) (decide (r.recomputed.state ≠ r.state)) true false false)).trans ?_
        rw [Bool.or_true]
        rfl
      · rw [if_neg hcap, decide_eq_false hcap, Bool.or_false]
        rfl
  · rw [if_neg hframed, if_neg hframed]
    rfl

/-- The load of a slot that is still free, with `b` the lowest-numbered free buffer. -/
theorem loadSlot_eq {images : SlotNo → SlotImage} {s : State} {i : SlotNo} {b : BufNo} (hslot : s.slots[i] = none)
    (hb : s.findBuffer Option.isNone = some b) :
    State.loadSlot images s i = loadInto s s.store.images[i] i b (slotLoad images s.store.images[i] i) := by
  have hset : s.slots.set i none = s.slots := by
    rw [← hslot]
    exact set_getElem ..
  have hnothing : ∀ mark damage, s.setStore (noted s.store (.slot i) mark damage) =
      loadInto s s.store.images[i] i b { mark := mark, damage := damage, record := none, frame := none } := fun _ _ => by
    unfold loadInto SlotLoad.placed
    dsimp only
    rw [hset]
    rfl
  unfold State.loadSlot slotLoad
  cases images i with
  | bad => exact (markLoaded_setDamaged ..).trans (hnothing ..)
  | erased =>
    refine Eq.trans ?_ (hnothing false false)
    rw [noted_none]
    rfl
  | record _ =>
    cases survivor images i with
    | none => exact (markLoaded_eq ..).trans (hnothing ..)
    | some r => exact loadRecord_eq _ i r hb

end Sys2Proof.PartReset
end

section
/-! SUPPORT. A buffer filled with the frame part of an image (R19, R166). -/

namespace Sys2Proof.PartReset
open Sys2Proof.Machine Sys2Proof.Requests

theorem inBuffer_inj {b b' : BufNo} {a : Nat} (h : inBuffer b a) (h' : inBuffer b' a) : b = b' := by
  unfold inBuffer bufferBase at h h'
  exact Fin.ext (by omega)

theorem inBuffer_of_inHeader {b : BufNo} {a : Nat} (h : inHeader b a) : inBuffer b a := by
  unfold inHeader at h
  unfold inBuffer
  omega

theorem inBuffer_bounds {b : BufNo} {a : Nat} (h : inBuffer b a) : 0x2800 ≤ a ∧ a < 0x3F40 := by
  unfold inBuffer bufferBase at h
  omega

/-- A capture's counts fit the places of a buffer. -/
theorem samples_fit {c : Capture} (h : c.Wf) : c.preGot + c.postGot ≤ 30 := by
  have := h.pre
  have := h.preMax
  have := h.post
  have := h.postMax
  omega

theorem placeAddress_inBuffer {b : BufNo} {k a : Nat} (hk : k < 30) (h : placeAddress b k ≤ a)
    (h' : a < placeAddress b k + 8) : inBuffer b a := by
  unfold placeAddress at h h'
  unfold inBuffer
  omega

/-! ### The samples -/

theorem loadedSamples_succ (m : Mem) (b : BufNo) (n : Nat) :
    ((List.range (n + 1)).flatMap fun k => wordsAt (placeAddress b k) (m.readRange (imagePlace k) 8)) =
      ((List.range n).flatMap fun k => wordsAt (placeAddress b k) (m.readRange (imagePlace k) 8)) ++
        wordsAt (placeAddress b n) (m.readRange (imagePlace n) 8) := by
  rw [List.range_succ, List.flatMap_append, List.flatMap_singleton]

theorem readRange_length (m : Mem) (a n : Nat) : (m.readRange a n).length = n := by simp [Mem.readRange]

theorem mem_loadedSamples {m : Mem} {b : BufNo} {c : Capture} {w : Nat × Word} (h : w ∈ loadedSamples m b c) :
    ∃ k < c.preGot + c.postGot, placeAddress b k ≤ w.1 ∧ w.1 < placeAddress b k + 8 := by
  obtain ⟨k, hk, hw⟩ := List.mem_flatMap.1 h
  have hb := mem_wordsAt hw
  rw [readRange_length] at hb
  exact ⟨k, List.mem_range.1 hk, hb⟩

/-- Every sample that the counts cover stands in its place. -/
theorem readRange_loadedSamples (srr m : Mem) (b : BufNo) (c : Capture) {k : Nat} (hk : k < c.preGot + c.postGot) :
    (srr.writeAll (loadedSamples m b c)).readRange (placeAddress b k) 8 = m.readRange (imagePlace k) 8 := by
  unfold loadedSamples
  generalize c.preGot + c.postGot = n at hk
  induction n with
  | zero => cases hk
  | succ n ih =>
    rw [loadedSamples_succ, Mem.writeAll_append]
    by_cases hkn : k = n
    · subst hkn
      have hread := readRange_writeAll_wordsAt (srr.writeAll ((List.range k).flatMap fun j =>
        wordsAt (placeAddress b j) (m.readRange (imagePlace j) 8))) (placeAddress b k) (m.readRange (imagePlace k) 8)
      rwa [readRange_length] at hread
    · rw [← ih (by omega)]
      refine readRange_congr fun a h1 h2 => Mem.read_writeAll_other fun w hw => ?_
      have hw := mem_wordsAt hw
      rw [readRange_length] at hw
      unfold placeAddress at h1 h2 hw
      omega

/-! ### The whole buffer -/

/-- The words of buffer `b` in `srr` are those of the capture `c` filled from the image `m`: its header, rewritten once since
the buffer was zero, its samples, and zero behind them. -/
structure Filled (srr m : Mem) (b : BufNo) (c : Capture) : Prop where
  header  : srr.readRange (bufferBase b) 7 = headerWords (some c)
  counter : srr.read (bufferBase b + 7) = 2
  samples : ∀ k, k < c.preGot + c.postGot → srr.readRange (placeAddress b k) 8 = m.readRange (imagePlace k) 8
  rest    : ∀ a, placeAddress b (c.preGot + c.postGot) ≤ a → inBuffer b a → srr.read a = 0

theorem filled_congr {srr srr' m : Mem} {b : BufNo} {c : Capture} (hc : c.Wf) (h : Filled srr m b c)
    (hread : ∀ a, inBuffer b a → srr'.read a = srr.read a) : Filled srr' m b c := by
  have hfit := samples_fit hc
  obtain ⟨hheader, hcounter, hsamples, hrest⟩ := h
  refine ⟨?_, ?_, fun k hk => ?_, fun a ha hb => (hread a hb).trans (hrest a ha hb)⟩
  · rw [← hheader]
    exact readRange_congr fun a h1 h2 => hread a ⟨h1, by omega⟩
  · rw [hread _ ⟨by omega, by omega⟩, hcounter]
  · rw [← hsamples k hk]
    exact readRange_congr fun a h1 h2 => hread a (placeAddress_inBuffer (by omega) h1 h2)

theorem headerWords_inHeader {b : BufNo} {o : Option Capture} {w : Nat × Word}
    (h : w ∈ wordsAt (bufferBase b) (headerWords o)) : inHeader b w.1 := by
  have hb := mem_wordsAt h
  rw [headerWords_length] at hb
  exact ⟨hb.1, by omega⟩

theorem mem_rewriteWords {srr : Mem} {counter : Nat} {ws : List (Nat × Word)} {w : Nat × Word}
    (h : w ∈ rewriteWords srr counter ws) : w.1 = counter ∨ w ∈ ws := by
  simp only [rewriteWords, List.cons_append, List.mem_cons, List.mem_append, List.not_mem_nil, or_false] at h
  rcases h with rfl | h | rfl
  exacts [.inl rfl, .inr h, .inl rfl]

theorem fillWords_inBuffer {srr m : Mem} {b : BufNo} {c : Capture} (hc : c.Wf) :
    ∀ w ∈ fillWords srr m b c, inBuffer b w.1 := fun w hw => by
  have hfit := samples_fit hc
  rcases List.mem_append.1 hw with hw | hw
  · obtain ⟨k, hk, h1, h2⟩ := mem_loadedSamples hw
    exact placeAddress_inBuffer (by omega) h1 h2
  · rcases mem_rewriteWords hw with h | h
    · exact ⟨by omega, by omega⟩
    · exact inBuffer_of_inHeader (headerWords_inHeader h)

/-- What the filling leaves in a buffer that was zero. -/
theorem fillWords_filled {srr : Mem} (m : Mem) {b : BufNo} {c : Capture}
    (hzero : ∀ a, inBuffer b a → srr.read a = 0) : Filled (srr.writeAll (fillWords srr m b c)) m b c := by
  have heq := fillBuffer_eq { State.reset with srr := srr } m b c
  generalize hu : (({ State.reset with srr := srr } : State).setBuffer b (some c)).putAll (loadedSamples m b c) = u at heq
  have husrr : u.srr = srr.writeAll (loadedSamples m b c) := by rw [← hu, State.putAll_srr]; rfl
  obtain ⟨hwords, hcount⟩ := publishHeader_rewritten u b
  have hreach := publishHeader_reach u b
  rw [heq] at hwords hcount hreach
  have hpool : (State.reset.pool.set b (some c))[b] = some c := by rw [getElem_set, if_pos rfl]
  have hbelow : ∀ a, a < placeAddress b 0 → u.srr.read a = srr.read a := fun a ha => by
    rw [husrr, Mem.read_writeAll_other]
    rintro w hw rfl
    obtain ⟨k, _, h1, _⟩ := mem_loadedSamples hw
    unfold placeAddress at ha h1
    omega
  have hbehind : ∀ a, placeAddress b 0 ≤ a → (srr.writeAll (fillWords srr m b c)).read a = u.srr.read a := fun a ha =>
    hreach a fun h => by
      unfold inHeader at h
      unfold placeAddress at ha
      omega
  refine ⟨?_, ?_, fun k hk => ?_, fun a ha hb => ?_⟩
  · rw [hwords]
    dsimp only
    rw [hpool]
  · rw [hcount, hbelow _ (by unfold placeAddress; omega), hzero _ ⟨by omega, by omega⟩]
    rfl
  · rw [← readRange_loadedSamples srr m b c hk, ← husrr]
    exact readRange_congr fun a h1 _ => hbehind a (by unfold placeAddress at h1 ⊢; omega)
  · rw [hbehind a (by unfold placeAddress at ha ⊢; omega), husrr, Mem.read_writeAll_other, hzero a hb]
    rintro w hw rfl
    obtain ⟨k, hk, _, h2⟩ := mem_loadedSamples hw
    unfold placeAddress at ha h2
    omega

end Sys2Proof.PartReset
end

section
/-! SUPPORT. The frames and records of all slots placed, in ascending slot number (R163 to R166). -/

namespace Sys2Proof.PartReset
open Sys2Proof.Machine Sys2Proof.Requests

/-! ### Passes over the slots -/

/-- What each step of a pass over `Fin n` carries from its number to the next, the pass carries from 0 to `n`. -/
theorem foldl_finRange_induction {α : Type} {n : Nat} {P : Nat → α → Prop} {f : α → Fin n → α} {a : α} (h0 : P 0 a)
    (hstep : ∀ (i : Fin n) (x : α), P i.val x → P (i.val + 1) (f x i)) : P n ((List.finRange n).foldl f a) := by
  induction n with
  | zero => exact h0
  | succ n ih =>
    rw [List.finRange_succ_last, List.foldl_append, List.foldl_map]
    exact hstep (Fin.last n) _ (ih fun i x => hstep i.castSucc x)

/-- The first number of which `p` holds. -/
theorem find?_finRange {n : Nat} {p : Fin n → Bool} {b : Fin n} (hb : p b = true) (hlow : ∀ b' < b, p b' = false) :
    (List.finRange n).find? p = some b := by
  refine List.find?_eq_some_iff_getElem.2 ⟨hb, b.val, by simp, by simp, fun j hj => ?_⟩
  rw [List.getElem_finRange, hlow _ (by simpa [Fin.lt_def] using hj)]
  rfl

/-! ### The buffers in the order of the slots (R166) -/

/-- How many slots below `k` have a frame. -/
def framesBelow (L : SlotNo → SlotLoad) : Nat → Nat
  | 0 => 0
  | k + 1 => framesBelow L k + if h : k < 16 then (if (L ⟨k, h⟩).frame.isSome then 1 else 0) else 0

theorem framesBelow_succ (L : SlotNo → SlotLoad) (i : SlotNo) :
    framesBelow L (i.val + 1) = framesBelow L i.val + if (L i).frame.isSome then 1 else 0 := by
  rw [framesBelow, dif_pos i.isLt]

theorem framesBelow_le (L : SlotNo → SlotLoad) (k : Nat) : framesBelow L k ≤ k := by
  induction k with
  | zero => exact Nat.le_refl _
  | succ k ih =>
    rw [framesBelow]
    split_ifs <;> omega

theorem framesBelow_mono (L : SlotNo → SlotLoad) {k k' : Nat} (h : k ≤ k') : framesBelow L k ≤ framesBelow L k' := by
  induction h with
  | refl => exact Nat.le_refl _
  | step _ ih => exact ih.trans (Nat.le_add_right ..)

/-- The buffer of the frame of slot `i`: as many are below it as slots below `i` have a frame. -/
def bufferAt (L : SlotNo → SlotLoad) (i : SlotNo) : BufNo :=
  ⟨framesBelow L i.val, by have := framesBelow_le L i.val; omega⟩

theorem bufferAt_lt {L : SlotNo → SlotLoad} {i j : SlotNo} (h : i < j) (hi : (L i).frame.isSome = true) :
    bufferAt L i < bufferAt L j := by
  have hsucc := framesBelow_succ L i
  rw [if_pos hi] at hsucc
  have hmono := framesBelow_mono L (show i.val + 1 ≤ j.val from h)
  exact Fin.lt_def.2 (by simp only [bufferAt]; omega)

/-! ### The invariant of the pass -/

/-- The slots below `k` have been loaded, from `s0` to `t`. -/
structure Placed (L : SlotNo → SlotLoad) (s0 : State) (k : Nat) (t : State) : Prop where
  frame     : t = { s0 with
    store := { s0.store with dirty := t.store.dirty, damaged := t.store.damaged }, pool := t.pool, slots := t.slots,
    srr := t.srr, stores := t.stores }
  slots     : ∀ j : SlotNo, t.slots[j] = if j.val < k then (L j).placed (bufferAt L j) else none
  pool      : ∀ (b : BufNo) (c : Capture), t.pool[b] = some c ↔
    ∃ j : SlotNo, j.val < k ∧ (L j).frame = some c ∧ bufferAt L j = b
  used      : ∀ b : BufNo, t.pool[b] = none ↔ framesBelow L k ≤ b.val
  filled    : ∀ (j : SlotNo) (c : Capture), j.val < k → (L j).frame = some c →
    Filled t.srr s0.store.images[j] (bufferAt L j) c
  zero      : ∀ a, (∀ b : BufNo, inBuffer b a → t.pool[b] = none) → t.srr.read a = 0
  canonical : t.srr.Canonical Config.srrWords
  dirty     : ∀ x, x ∈ t.store.dirty ↔
    x ∈ s0.store.dirty ∨ ∃ j : SlotNo, j.val < k ∧ x = .slot j ∧ (L j).mark = true
  nodup     : t.store.dirty.Nodup
  damaged   : t.store.damaged = true ↔ s0.store.damaged = true ∨ ∃ j : SlotNo, j.val < k ∧ (L j).damage = true

theorem placed_zero {L : SlotNo → SlotLoad} {s : State} (hslots : ∀ i : SlotNo, s.slots[i] = none)
    (hpool : ∀ b : BufNo, s.pool[b] = none) (hsrr : s.srr = []) (hdirty : s.store.dirty.Nodup) : Placed L s 0 s where
  frame := rfl
  slots := fun j => by rw [hslots, if_neg (Nat.not_lt_zero _)]
  pool := fun b c => by simp [hpool]
  used := fun b => by simp [hpool, framesBelow]
  filled := fun j c h => absurd h (Nat.not_lt_zero _)
  zero := fun a _ => by rw [hsrr]; rfl
  canonical := by rw [hsrr]; exact Mem.canonical_nil _
  dirty := fun x => by simp
  nodup := hdirty
  damaged := by simp

theorem lt_succ_iff_or {i j : SlotNo} : j.val < i.val + 1 ↔ j.val < i.val ∨ j = i := by
  rw [Fin.ext_iff]
  omega

/-- A slot among those below `i + 1` is one below `i`, or `i`. -/
theorem exists_lt_succ {i : SlotNo} {P : SlotNo → Prop} :
    (∃ j : SlotNo, j.val < i.val + 1 ∧ P j) ↔ (∃ j : SlotNo, j.val < i.val ∧ P j) ∨ P i := by
  simp only [lt_succ_iff_or, or_and_right, exists_or, exists_eq_left]

section Step
variable {L : SlotNo → SlotLoad} {s0 t : State} {i : SlotNo} (h : Placed L s0 i.val t)
include h

theorem placed_free : t.slots[i] = none := by rw [h.slots, if_neg (Nat.lt_irrefl _)]

/-- The lowest-numbered free buffer is that of slot `i`. -/
theorem placed_findBuffer : t.findBuffer Option.isNone = some (bufferAt L i) := by
  refine find?_finRange ?_ fun b hb => ?_
  · rw [Option.isNone_iff_eq_none, h.used]
    exact Nat.le_refl _
  · rw [Option.isNone_eq_false_iff, Option.isSome_iff_ne_none]
    exact fun hn => Nat.not_lt.2 ((h.used b).1 hn) hb

theorem placed_images : t.store.images = s0.store.images := by rw [h.frame]

/-- What a load of one slot does beside its frame. -/
theorem placed_slots_step (m : Mem) (j : SlotNo) :
    (loadInto t m i (bufferAt L i) (L i)).slots[j] =
      if j.val < i.val + 1 then (L j).placed (bufferAt L j) else none := by
  change (t.slots.set i ((L i).placed (bufferAt L i)))[j] = _
  rw [getElem_set]
  by_cases hj : j = i
  · rw [if_pos hj, if_pos (lt_succ_iff_or.2 (.inr hj)), hj]
  · rw [if_neg hj, h.slots]
    simp only [lt_succ_iff_or, hj, or_false]

theorem placed_dirty_step (m : Mem) (x : ImageId) :
    x ∈ (loadInto t m i (bufferAt L i) (L i)).store.dirty ↔
      x ∈ s0.store.dirty ∨ ∃ j : SlotNo, j.val < i.val + 1 ∧ x = .slot j ∧ (L j).mark = true := by
  change x ∈ (noted t.store (.slot i) (L i).mark (L i).damage).dirty ↔ _
  rw [mem_noted, h.dirty, exists_lt_succ, or_assoc, and_comm (a := (L i).mark = true)]

theorem placed_damaged_step (m : Mem) :
    (loadInto t m i (bufferAt L i) (L i)).store.damaged = true ↔
      s0.store.damaged = true ∨ ∃ j : SlotNo, j.val < i.val + 1 ∧ (L j).damage = true := by
  change (t.store.damaged || (L i).damage) = true ↔ _
  rw [Bool.or_eq_true, h.damaged, exists_lt_succ, or_assoc]

theorem placed_frame_step (m : Mem) :
    let t' := loadInto t m i (bufferAt L i) (L i)
    t' = { s0 with
      store := { s0.store with dirty := t'.store.dirty, damaged := t'.store.damaged }, pool := t'.pool,
      slots := t'.slots, srr := t'.srr, stores := t'.stores } := by
  dsimp only
  unfold loadInto
  rw [h.frame]
  rfl

/-- A slot without a frame leaves the pool and the SRR as they were. -/
theorem placed_step_plain (hf : (L i).frame = none) :
    Placed L s0 (i.val + 1) (loadInto t s0.store.images[i] i (bufferAt L i) (L i)) := by
  have hpool : (loadInto t s0.store.images[i] i (bufferAt L i) (L i)).pool = t.pool := by unfold loadInto; rw [hf]
  have hsrr : (loadInto t s0.store.images[i] i (bufferAt L i) (L i)).srr = t.srr := by unfold loadInto; rw [hf]
  refine ⟨placed_frame_step h _, placed_slots_step h _, fun b c => ?_, fun b => ?_, fun j c hj hc => ?_, fun a ha => ?_,
    ?_, placed_dirty_step h _, nodup_noted h.nodup .., placed_damaged_step h _⟩
  · rw [hpool, h.pool, exists_lt_succ, hf]
    simp
  · rw [hpool, h.used, framesBelow_succ, hf]
    simp
  · rw [hsrr]
    rcases lt_succ_iff_or.1 hj with hj | rfl
    · exact h.filled j c hj hc
    · rw [hf] at hc
      cases hc
  · rw [hpool] at ha
    rw [hsrr, h.zero a ha]
  · rw [hsrr]
    exact h.canonical

/-- A slot with a frame fills the buffer that is its own. -/
theorem placed_step_frame (hwf : ∀ (j : SlotNo) (c : Capture), (L j).frame = some c → c.Wf) {c : Capture}
    (hf : (L i).frame = some c) :
    Placed L s0 (i.val + 1) (loadInto t s0.store.images[i] i (bufferAt L i) (L i)) := by
  have hpool : (loadInto t s0.store.images[i] i (bufferAt L i) (L i)).pool = t.pool.set (bufferAt L i) (some c) := by
    unfold loadInto
    rw [hf]
  have hsrr : (loadInto t s0.store.images[i] i (bufferAt L i) (L i)).srr =
      t.srr.writeAll (fillWords t.srr s0.store.images[i] (bufferAt L i) c) := by
    unfold loadInto
    rw [hf]
  have hinside := fillWords_inBuffer (srr := t.srr) (m := s0.store.images[i]) (b := bufferAt L i) (hwf i c hf)
  have hfree : t.pool[bufferAt L i] = none := (h.used _).2 (Nat.le_refl _)
  have hother : ∀ a, ¬ inBuffer (bufferAt L i) a →
      (loadInto t s0.store.images[i] i (bufferAt L i) (L i)).srr.read a = t.srr.read a := fun a ha => by
    rw [hsrr, Mem.read_writeAll_other]
    rintro w hw rfl
    exact ha (hinside w hw)
  have hbefore : ∀ j : SlotNo, j.val < i.val → (L j).frame.isSome = true → bufferAt L j ≠ bufferAt L i :=
    fun j hj hs => (bufferAt_lt hj hs).ne
  refine ⟨placed_frame_step h _, placed_slots_step h _, fun b c' => ?_, fun b => ?_, fun j c' hj hc => ?_, fun a ha => ?_,
    ?_, placed_dirty_step h _, nodup_noted h.nodup .., placed_damaged_step h _⟩
  · rw [hpool, getElem_set, exists_lt_succ, hf]
    by_cases hb : b = bufferAt L i
    · rw [if_pos hb, hb]
      constructor
      · exact fun hc => .inr ⟨hc, rfl⟩
      · rintro (⟨j, hj, hc, he⟩ | ⟨hc, _⟩)
        · exact absurd he (hbefore j hj (by rw [hc]; rfl))
        · exact hc
    · rw [if_neg hb, h.pool, or_iff_left fun hc => hb hc.2.symm]
  · rw [hpool, getElem_set, framesBelow_succ, hf, Option.isSome_some, if_pos rfl]
    by_cases hb : b = bufferAt L i
    · rw [if_pos hb, hb]
      exact ⟨nofun, fun hle => absurd hle (Nat.not_succ_le_self _)⟩
    · rw [if_neg hb, h.used]
      have hne : b.val ≠ framesBelow L i.val := fun he => hb (Fin.ext he)
      omega
  · rcases lt_succ_iff_or.1 hj with hj | rfl
    · refine filled_congr (hwf j c' hc) (h.filled j c' hj hc) fun a ha => hother a fun hi => ?_
      exact hbefore j hj (by rw [hc]; rfl) (inBuffer_inj ha hi)
    · rw [hf] at hc
      cases hc
      rw [hsrr]
      refine fillWords_filled _ fun a ha => h.zero a fun b hb => ?_
      rw [inBuffer_inj hb ha, hfree]
  · rw [hpool] at ha
    have hout : ¬ inBuffer (bufferAt L i) a := fun hi => by
      have hn := ha _ hi
      rw [getElem_set, if_pos rfl] at hn
      cases hn
    rw [hother a hout]
    refine h.zero a fun b hb => ?_
    have hn := ha b hb
    rw [getElem_set, if_neg (show b ≠ bufferAt L i from fun he => hout (he ▸ hb))] at hn
    exact hn
  · rw [hsrr]
    refine Mem.canonical_writeAll h.canonical fun w hw => ?_
    have := inBuffer_bounds (hinside w hw)
    simp only [Config.srrWords]
    omega

end Step

/-- The pass over all slots. -/
theorem foldl_loadSlot {images : SlotNo → SlotImage} {s : State}
    (hwf : ∀ (j : SlotNo) (c : Capture), (slotLoad images s.store.images[j] j).frame = some c → c.Wf)
    (h : Placed (fun i => slotLoad images s.store.images[i] i) s 0 s) :
    Placed (fun i => slotLoad images s.store.images[i] i) s 16
      ((List.finRange 16).foldl (State.loadSlot images) s) := by
  refine foldl_finRange_induction (P := Placed (fun i => slotLoad images s.store.images[i] i) s) h fun i t ht => ?_
  rw [loadSlot_eq (placed_free ht) (placed_findBuffer ht), placed_images ht]
  cases hf : (slotLoad images s.store.images[i] i).frame with
  | none => exact placed_step_plain ht hf
  | some c => exact placed_step_frame ht hwf hf

end Sys2Proof.PartReset
end

section
/-! SUPPORT. The header image and the judgement of each slot's image (R162 to R167): which images the load marks, what is
damage, and the record and frame of a slot. -/

namespace Sys2Proof.PartReset
open Sys2Proof.Machine Sys2Proof.Requests

/-! ### The header image (R162) -/

/-- The settled ride number. -/
def settledRide (header : Mem) (images : SlotNo → SlotImage) : Word :=
  match readHeaderImage header with
  | some n => if n < highestRide images then highestRide images else n
  | none => highestRide images

theorem settledRide_bad {header : Mem} {images : SlotNo → SlotImage} (h : readHeaderImage header = none) :
    settledRide header images = highestRide images := by
  rw [settledRide, h]

theorem settledRide_valid {header : Mem} {images : SlotNo → SlotImage} {n : Word} (h : readHeaderImage header = some n) :
    settledRide header images = if n < highestRide images then highestRide images else n := by
  rw [settledRide, h]

/-- The header image is marked where it does not hold the settled ride number, and is damage where it is bad. -/
theorem loadHeader_eq (s : State) (images : SlotNo → SlotImage) :
    s.loadHeader images =
      { s with
        sup := { s.sup with rideNumber := settledRide s.store.header images },
        store := noted s.store .header
          (decide (readHeaderImage s.store.header ≠ some (settledRide s.store.header images)))
          (decide (readHeaderImage s.store.header = none)) } := by
  unfold State.loadHeader
  cases h : readHeaderImage s.store.header with
  | none =>
    rw [settledRide_bad h]
    exact markLoaded_setDamaged (s.setSup { s.sup with rideNumber := highestRide images }) .header
  | some n =>
    rw [settledRide_valid h]
    dsimp only
    by_cases hlt : n < highestRide images
    · have hne : some n ≠ some (highestRide images) := fun he =>
        BitVec.lt_irrefl _ (Option.some.inj he ▸ hlt)
      rw [if_pos hlt, if_pos hlt, decide_eq_true hne, markLoaded_eq]
      rfl
    · rw [if_neg hlt, if_neg hlt, decide_eq_false (not_not.2 rfl), decide_eq_false nofun, noted_none]
      rfl

theorem le_settledRide {header : Mem} {images : SlotNo → SlotImage} {i : SlotNo} {r : Record} (h : Kept images i r) :
    r.lastRide ≤ settledRide header images := by
  have hle := le_highestRide h
  unfold settledRide
  split
  · split
    · exact hle
    · rename_i hnot
      exact BitVec.le_trans hle (BitVec.not_lt.1 hnot)
  · exact hle

/-- A bad header leaves the highest ride number of a kept record, or 0. -/
theorem settledRide_of_bad {header : Mem} {images : SlotNo → SlotImage} (h : readHeaderImage header = none) :
    settledRide header images = 0 ∨ ∃ i r, Kept images i r ∧ r.lastRide = settledRide header images := by
  rw [settledRide_bad h]
  exact highestRide_from images

theorem settledRide_of_valid {header : Mem} {images : SlotNo → SlotImage} {n : Word}
    (h : readHeaderImage header = some n) :
    n ≤ settledRide header images ∧
      (settledRide header images = n ∨ ∃ i r, Kept images i r ∧ r.lastRide = settledRide header images) := by
  rw [settledRide_valid h]
  by_cases hlt : n < highestRide images
  · rw [if_pos hlt]
    refine ⟨BitVec.le_of_lt hlt, (highestRide_from images).imp_left fun h0 => ?_⟩
    rw [h0] at hlt
    exact absurd hlt BitVec.not_lt_zero
  · rw [if_neg hlt]
    exact ⟨BitVec.le_refl _, .inl rfl⟩

/-! ### The image of one slot -/

theorem framed_iff {f : FrameStatus} : f.framed = true ↔ f = .capturing ∨ f = .complete ∨ f = .short := by
  cases f <;> simp [FrameStatus.framed]

/-- The frame part of a record image that says it holds one is not sound (R165, R166). -/
def Unsound (m : Mem) (i : SlotNo) (r : Record) : Prop :=
  (r.frameStatus = .capturing ∨ r.frameStatus = .complete ∨ r.frameStatus = .short) ∧ captureOfImage m i r = none

section Record
variable {m : Mem} {i : SlotNo} {r : Record}

theorem recordLoad_unframed (h : ¬ r.frameStatus.framed = true) :
    recordLoad m i r =
      { mark := decide (r.computedState ≠ r.state), damage := false, record := some r.recomputed, frame := none } := by
  rw [recordLoad, if_neg h]

theorem recordLoad_unsound (h : r.frameStatus.framed = true) (hc : captureOfImage m i r = none) :
    recordLoad m i r =
      { mark := true, damage := true, frame := none,
        record := some { r.recomputed with frameStatus := .missed, preShort := false, gap := false } } := by
  rw [recordLoad, if_pos h, hc]

theorem recordLoad_sound {c : Capture} (h : r.frameStatus.framed = true) (hc : captureOfImage m i r = some c) :
    recordLoad m i r =
      { mark := decide (r.computedState ≠ r.state) || decide (r.frameStatus = .capturing), damage := false,
        record := some { r.recomputed with frameStatus := captureFrameStatus c.state }, frame := some c } := by
  rw [recordLoad, if_pos h, hc]

/-- A kept record meets one of three fates: it has no frame, an unsound one, or a sound one. -/
theorem record_cases (m : Mem) (i : SlotNo) (r : Record) :
    ¬ r.frameStatus.framed = true ∨ (r.frameStatus.framed = true ∧ captureOfImage m i r = none) ∨
      ∃ c, r.frameStatus.framed = true ∧ captureOfImage m i r = some c := by
  by_cases h : r.frameStatus.framed = true
  · cases hc : captureOfImage m i r with
    | none => exact .inr (.inl ⟨h, rfl⟩)
    | some c => exact .inr (.inr ⟨c, h, rfl⟩)
  · exact .inl h

theorem recordLoad_damage_iff : (recordLoad m i r).damage = true ↔ Unsound m i r := by
  unfold Unsound
  rw [← framed_iff]
  rcases record_cases m i r with h | ⟨h, hc⟩ | ⟨c, h, hc⟩
  · rw [recordLoad_unframed h]
    simp [h]
  · rw [recordLoad_unsound h hc]
    simp [h, hc]
  · rw [recordLoad_sound h hc]
    simp [hc]

theorem recordLoad_mark_iff (hr : FromImage r) :
    (recordLoad m i r).mark = true ↔
      Unsound m i r ∨ r.frameStatus = .capturing ∨ r.state ≠ if r.lampLatch then .active else .stored := by
  unfold Unsound
  rw [← framed_iff, ← computedState_fromImage hr, ne_comm]
  rcases record_cases m i r with h | ⟨h, hc⟩ | ⟨c, h, hc⟩
  · have hne : r.frameStatus ≠ .capturing := fun he => h (by rw [he]; rfl)
    rw [recordLoad_unframed h]
    simp [h, hne]
  · rw [recordLoad_unsound h hc]
    simp [h, hc]
  · rw [recordLoad_sound h hc]
    simp [hc, or_comm]

theorem recordLoad_frame_iff {c : Capture} :
    (recordLoad m i r).frame = some c ↔ r.frameStatus.framed = true ∧ captureOfImage m i r = some c := by
  rcases record_cases m i r with h | ⟨h, hc⟩ | ⟨c', h, hc⟩
  · rw [recordLoad_unframed h]
    simp [h]
  · rw [recordLoad_unsound h hc]
    simp [hc]
  · rw [recordLoad_sound h hc]
    simp [h, hc]

end Record

section Slot
variable {images : SlotNo → SlotImage} {m : Mem} {i : SlotNo}

theorem slotLoad_kept {r : Record} (h : Kept images i r) : slotLoad images m i = recordLoad m i r := by
  rw [slotLoad, h.1]
  dsimp only
  rw [survivor_iff.2 h]

/-- A slot whose image keeps no record is bad, erased, or holds a record that another puts out. -/
theorem slotLoad_unkept (h : ∀ r, ¬ Kept images i r) :
    (images i = .bad ∧ slotLoad images m i = { mark := true, damage := true, record := none, frame := none }) ∨
    (images i = .erased ∧ slotLoad images m i = { mark := false, damage := false, record := none, frame := none }) ∨
    ∃ r, images i = .record r ∧ slotLoad images m i = { mark := true, damage := false, record := none, frame := none } := by
  unfold slotLoad
  cases images i with
  | bad => exact .inl ⟨rfl, rfl⟩
  | erased => exact .inr (.inl ⟨rfl, rfl⟩)
  | record r =>
    dsimp only
    rw [survivor_none_iff.2 h]
    exact .inr (.inr ⟨r, rfl, rfl⟩)

theorem slotLoad_damage_iff :
    (slotLoad images m i).damage = true ↔ images i = .bad ∨ ∃ r, Kept images i r ∧ Unsound m i r := by
  by_cases h : ∃ r, Kept images i r
  · obtain ⟨r, hr⟩ := h
    rw [slotLoad_kept hr, recordLoad_damage_iff, hr.1]
    constructor
    · exact fun hu => .inr ⟨r, hr, hu⟩
    · rintro (hbad | ⟨q, hq, hu⟩)
      · cases hbad
      · exact kept_record_unique hq hr ▸ hu
  · rw [not_exists] at h
    have hnone : ¬ ∃ r, Kept images i r ∧ Unsound m i r := fun ⟨r, hr, _⟩ => h r hr
    rcases slotLoad_unkept (m := m) h with ⟨hi, hl⟩ | ⟨hi, hl⟩ | ⟨r, hi, hl⟩ <;> rw [hl, hi] <;> simp [hnone]

theorem slotLoad_mark_iff (hfrom : ∀ r, images i = .record r → FromImage r) :
    (slotLoad images m i).mark = true ↔
      images i = .bad ∨ (∃ r, images i = .record r ∧ ¬ Kept images i r) ∨
        ∃ r, Kept images i r ∧ (Unsound m i r ∨ r.frameStatus = .capturing ∨
          r.state ≠ if r.lampLatch then .active else .stored) := by
  by_cases h : ∃ r, Kept images i r
  · obtain ⟨r, hr⟩ := h
    rw [slotLoad_kept hr, recordLoad_mark_iff (hfrom r hr.1)]
    constructor
    · exact fun hm => .inr (.inr ⟨r, hr, hm⟩)
    · rintro (hbad | ⟨q, hq, hn⟩ | ⟨q, hq, hm⟩)
      · cases hr.1.symm.trans hbad
      · cases hr.1.symm.trans hq
        exact absurd hr hn
      · exact kept_record_unique hq hr ▸ hm
  · rw [not_exists] at h
    rcases slotLoad_unkept (m := m) h with ⟨hi, hl⟩ | ⟨hi, hl⟩ | ⟨r, hi, hl⟩ <;> rw [hl, hi] <;> simp [h]

theorem slotLoad_frame_kept {c : Capture} (h : (slotLoad images m i).frame = some c) :
    ∃ r, Kept images i r ∧ r.frameStatus.framed = true ∧ captureOfImage m i r = some c := by
  by_cases hk : ∃ r, Kept images i r
  · obtain ⟨r, hr⟩ := hk
    rw [slotLoad_kept hr] at h
    exact ⟨r, hr, recordLoad_frame_iff.1 h⟩
  · rw [not_exists] at hk
    rcases slotLoad_unkept (m := m) hk with ⟨_, hl⟩ | ⟨_, hl⟩ | ⟨_, _, hl⟩ <;> rw [hl] at h <;> cases h

theorem slotLoad_frame_wf (c : Capture) (h : (slotLoad images m i).frame = some c) : c.Wf := by
  obtain ⟨r, _, _, hc⟩ := slotLoad_frame_kept h
  exact (captureOfImage_frame hc).wf

/-- A slot that keeps no record stays free. -/
theorem placed_unkept (h : ∀ r, ¬ Kept images i r) (b : BufNo) : (slotLoad images m i).placed b = none := by
  rcases slotLoad_unkept (m := m) h with ⟨_, hl⟩ | ⟨_, hl⟩ | ⟨_, _, hl⟩ <;> rw [hl] <;> rfl

/-- What the slot of a kept record holds after the load. -/
structure PlacedRecord (m : Mem) (i : SlotNo) (b : BufNo) (r q : Record) : Prop where
  fields  : q = { r with state := if r.lampLatch then .active else .stored, frame := q.frame,
                         frameStatus := q.frameStatus, preShort := q.preShort, gap := q.gap }
  plain   : ¬ r.frameStatus.framed = true →
    q.frame = none ∧ q.frameStatus = r.frameStatus ∧ q.preShort = r.preShort ∧ q.gap = r.gap
  unsound : r.frameStatus.framed = true → captureOfImage m i r = none →
    q.frame = none ∧ q.frameStatus = .missed ∧ q.preShort = false ∧ q.gap = false
  sound   : r.frameStatus.framed = true → ∀ c, captureOfImage m i r = some c →
    q.frame = some b ∧ q.frameStatus = (if r.frameStatus = .complete then .complete else .short) ∧
      q.preShort = r.preShort ∧ q.gap = r.gap

theorem placed_kept {r : Record} (h : Kept images i r) (hr : FromImage r) (b : BufNo) :
    ∃ q, (slotLoad images m i).placed b = some q ∧ PlacedRecord m i b r q := by
  rw [slotLoad_kept h]
  have hstate := computedState_fromImage hr
  rcases record_cases m i r with hf | ⟨hf, hc⟩ | ⟨c, hf, hc⟩
  · rw [recordLoad_unframed hf]
    refine ⟨_, rfl, ?_, fun _ => ⟨hr.frame, rfl, rfl, rfl⟩, fun h => absurd h hf, fun h => absurd h hf⟩
    rw [Record.recomputed, hstate]
  · rw [recordLoad_unsound hf hc]
    refine ⟨_, rfl, ?_, fun h => absurd hf h, fun _ _ => ⟨hr.frame, rfl, rfl, rfl⟩,
      fun _ c hc' => nomatch hc.symm.trans hc'⟩
    rw [Record.recomputed, hstate]
  · rw [recordLoad_sound hf hc]
    refine ⟨_, rfl, ?_, fun h => absurd hf h, fun _ hn => (nomatch hn.symm.trans hc), fun _ c' hc' => ?_⟩
    · rw [Record.recomputed, hstate]
    · cases hc.symm.trans hc'
      refine ⟨rfl, ?_, rfl, rfl⟩
      change captureFrameStatus c.state = _
      rw [(captureOfImage_frame hc).state]
      split <;> rfl

end Slot

end Sys2Proof.PartReset
end

section
/-! SUPPORT. The views of the loaded records and of the index list, and the record lamp notices (R166, R172). -/

namespace Sys2Proof.PartReset
open Sys2Proof.Machine Sys2Proof.Requests

/-! ### Rewrites keep the SRR canonical (R1) -/

theorem rewrite_canonical {s : State} {n counter : Nat} {ws : List (Nat × Word)} (h : s.srr.Canonical n)
    (hc : counter < n) (hw : ∀ w ∈ ws, w.1 < n) : (s.rewrite counter ws).srr.Canonical n := by
  rw [rewrite_putAll, State.putAll_srr]
  refine Mem.canonical_writeAll h fun w hmem => ?_
  rcases mem_rewriteWords hmem with he | hmem
  · omega
  · exact hw w hmem

theorem publishRecord_canonical {s : State} (h : s.srr.Canonical Config.srrWords) (i : SlotNo) :
    (s.publishRecord i).srr.Canonical Config.srrWords := by
  refine rewrite_canonical h ?_ fun w hw => ?_
  · simp only [recordView, Config.srrWords]
    omega
  · have hb := mem_wordsAt hw
    rw [recordWords_length] at hb
    simp only [recordView, Config.srrWords] at hb ⊢
    omega

theorem publishIndex_canonical {s : State} (hlen : s.index.length ≤ 16) (h : s.srr.Canonical Config.srrWords) :
    s.publishIndex.srr.Canonical Config.srrWords := by
  refine rewrite_canonical h (by decide) fun w hw => ?_
  rcases List.mem_cons.1 hw with rfl | hw
  · dsimp only
    decide
  · have hb := mem_wordsAt hw
    rw [indexWords_length hlen] at hb
    simp only [indexView, Config.srrWords] at hb ⊢
    omega

/-! ### The records shown -/

/-- The lamp notice of a loaded record that lights a lamp (R172). -/
def loadedNotice (slots : Vector (Option Record) 16) (i : SlotNo) : Option Instr :=
  match slots[i] with
  | some q => if q.lampLatch = true ∧ q.lamp ≠ .none then some (.recordLampNotice ⟨q.lamp, none⟩) else none
  | none => none

theorem loadedNotice_none {slots : Vector (Option Record) 16} {i : SlotNo} (h : slots[i] = none) :
    loadedNotice slots i = none := by
  rw [loadedNotice, h]

theorem showLoaded_none {s : State} {i : SlotNo} (h : s.slots[i] = none) : s.showLoaded i = s := by
  rw [State.showLoaded, h]

/-- A record that the load brings into a free slot concerns the lamps that it lights. -/
theorem lampNotice_loaded {slots : Vector (Option Record) 16} {i : SlotNo} {q : Record} (h : slots[i] = some q) :
    lampNotice none (Vector.replicate 16 none) slots i = loadedNotice slots i := by
  have hold : (Vector.replicate 16 (none : Option Record))[i] = none := Vector.getElem_replicate ..
  have hlamps : lampsConcerned none (some q) = if q.lampLatch then q.lamp else .none := rfl
  unfold lampNotice loadedNotice
  simp only [hold, h, hlamps]
  cases q.lampLatch <;> by_cases hn : q.lamp = .none <;> simp [hn]

/-- Showing a loaded record rewrites its view and raises its lamp notice. -/
theorem showLoaded_some {s : State} {i : SlotNo} {q : Record} (h : s.slots[i] = some q) :
    s.showLoaded i = (s.publishRecord i).raiseAll (loadedNotice s.slots i).toList := by
  have hone := foldl_handLamps none (Vector.replicate 16 none) [i] (s.publishRecord i)
  have hnotice : [i].filterMap (lampNotice none (Vector.replicate 16 none) (s.publishRecord i).slots) =
      (loadedNotice s.slots i).toList := by
    rw [State.publishRecord_slots, List.filterMap_cons, lampNotice_loaded h]
    cases loadedNotice s.slots i <;> rfl
  rw [hnotice] at hone
  rw [State.showLoaded, h]
  exact hone

/-- What showing the slots `l` comes to. -/
structure Shown (l : List SlotNo) (s t : State) : Prop where
  frame     : t = { s with srr := t.srr, stores := t.stores,
                           inFlight := s.inFlight ++ l.filterMap (loadedNotice s.slots) }
  view      : ∀ i ∈ l, s.slots[i] ≠ none → RecordRewritten s t i
  reach     : SrrOnly s t fun a => ∃ i ∈ l, s.slots[i] ≠ none ∧ inRecordWords i a
  canonical : s.srr.Canonical Config.srrWords → t.srr.Canonical Config.srrWords

theorem foldl_showLoaded {l : List SlotNo} (hl : l.Nodup) (s : State) : Shown l s (l.foldl State.showLoaded s) := by
  induction l generalizing s with
  | nil => exact ⟨by simp, nofun, fun _ _ => rfl, id⟩
  | cons i l ih =>
    obtain ⟨hi, hl⟩ := List.nodup_cons.1 hl
    obtain ⟨hframe, hview, hreach, hcanonical⟩ := ih hl (s.showLoaded i)
    rw [List.foldl_cons]
    generalize l.foldl State.showLoaded (s.showLoaded i) = t at hframe hview hreach hcanonical
    have hslots : (s.showLoaded i).slots = s.slots := by rw [State.showLoaded_frame]
    rw [hslots] at hview hreach
    cases hs : s.slots[i] with
    | none =>
      rw [showLoaded_none hs] at hframe hview hreach hcanonical
      refine ⟨by rw [List.filterMap_cons_none (loadedNotice_none hs)]; exact hframe, fun j hj hne => ?_, ?_, hcanonical⟩
      · rcases List.mem_cons.1 hj with rfl | hj
        · exact absurd hs hne
        · exact hview j hj hne
      · exact srrOnly_mono hreach fun a ⟨j, hj, h⟩ => ⟨j, List.mem_cons_of_mem _ hj, h⟩
    | some q =>
      rw [showLoaded_some hs] at hframe hview hreach hcanonical
      have hcons : (i :: l).filterMap (loadedNotice s.slots) =
          (loadedNotice s.slots i).toList ++ l.filterMap (loadedNotice s.slots) := by
        rw [List.filterMap_cons]
        cases loadedNotice s.slots i <;> rfl
      refine ⟨?_, fun j hj hne => ?_, ?_, fun h => hcanonical (publishRecord_canonical h i)⟩
      · rw [hcons, hframe, State.raiseAll_slots, State.publishRecord_slots, State.publishRecord, State.rewrite_eq,
          State.putAll_eq]
        simp [State.raiseAll]
      · rcases List.mem_cons.1 hj with rfl | hj
        · refine recordRewritten_congr (publishRecord_rewritten s j) ?_ (fun _ _ => rfl) fun a ha =>
            hreach a fun ⟨k, hk, _, ha'⟩ => hi (inRecordWords_inj ha ha' ▸ hk)
          rw [hframe]
          rfl
        · exact recordRewritten_congr (hview j hj hne) rfl
            (fun a ha => (publishRecord_reach s i a fun ha' => hi (inRecordWords_inj ha' ha ▸ hj)).symm) fun _ _ => rfl
      · refine srrOnly_mono (srrOnly_trans (publishRecord_reach s i) hreach) fun a ha => ?_
        rcases ha with ha | ⟨j, hj, ha⟩
        · exact ⟨i, List.mem_cons_self .., by rw [hs]; exact nofun, ha⟩
        · exact ⟨j, List.mem_cons_of_mem _ hj, ha⟩

/-! ### The index list -/

/-- What the last step of the load does to the index list (R166). -/
structure Indexed (s t : State) : Prop where
  frame     : t = { s with index := indexOf s.slots, srr := t.srr, stores := t.stores }
  kept      : indexOf s.slots = [] → t.srr = s.srr
  view      : indexOf s.slots ≠ [] → IndexRewritten s t
  reach     : SrrOnly s t inIndexView
  canonical : s.srr.Canonical Config.srrWords → t.srr.Canonical Config.srrWords

theorem loadIndex_indexed {s : State} (h : s.index = []) : Indexed s s.loadIndex := by
  unfold State.loadIndex
  dsimp only
  by_cases hn : indexOf s.slots = []
  · rw [if_pos hn]
    refine ⟨?_, fun _ => rfl, fun hne => absurd hn hne, fun _ _ => rfl, id⟩
    rw [hn, ← h]
  · have hlen : (s.setIndex (indexOf s.slots)).index.length ≤ 16 := indexOf_length_le s.slots
    rw [if_neg hn]
    refine ⟨?_, fun he => absurd he hn, fun _ => ?_, fun a ha => publishIndex_reach hlen a ha,
      publishIndex_canonical hlen⟩
    · rw [State.publishIndex, State.rewrite_eq, State.putAll_eq]
      rfl
    · exact indexRewritten_congr (publishIndex_rewritten hlen) rfl (fun _ _ => rfl) fun _ _ => rfl

end Sys2Proof.PartReset
end

section
/-! SUPPORT. The release of a part reset as a chain (R131, R161): the values after part reset, the header, the slots placed,
the records shown, and the index list. -/

namespace Sys2Proof.PartReset
open Sys2Proof.Machine Sys2Proof.Requests

/-! ### The values after part reset (R131) -/

/-- The part with every block at its value after part reset, and the images that the hold has left. -/
structure ResetState (s u : State) : Prop where
  frame     : u = { State.reset with
    pending := s.pending, inFlight := [], tears := u.tears, ports := u.ports,
    store := { Store.delivered with
      header := u.store.header, images := u.store.images, supplyLow := s.store.supplyLow } }
  ports     : ∀ p : Port, u.ports.get p =
    { PortIf.reset with link := if (s.ports.get p).link = .deselected then .deselected else .abandoned }
  images    : ImagesCut s u.store
  canonical : ∀ x, u.store.image x = s.store.image x ∨ (u.store.image x).Canonical (imageLength x)
  idle      : s.store.writing = none → u.store.header = s.store.header ∧ u.store.images = s.store.images

theorem image_congr {t t' : Store} (hh : t.header = t'.header) (hi : t.images = t'.images) (x : ImageId) :
    t.image x = t'.image x := by
  cases x with
  | header => exact hh
  | slot i => rw [Store.image, hi, Store.image]

theorem afterReset_held (s : State) : ResetState s (s.begin .partReset).afterReset where
  frame := rfl
  ports := fun p => by cases p <;> rfl
  images := imagesCut_same fun x => image_congr rfl rfl x
  canonical := fun x => .inl (image_congr rfl rfl x)
  idle := fun _ => ⟨rfl, rfl⟩

theorem afterReset_hold (s : State) : ResetState s (s.begin .partReset).hold.afterReset := by
  obtain ⟨hframe, himages, hcanonical, hidle⟩ := cutWrite_cut (s.begin .partReset)
  unfold State.hold
  generalize (s.begin .partReset).cutWrite = u at hframe himages hcanonical hidle
  have himage : ∀ x, (({ u with
      held := true, ports := { e := (s.begin .partReset).ports.e.abandon, a := (s.begin .partReset).ports.a.abandon },
      lamps := { (s.begin .partReset).lamps with
        engine := { (s.begin .partReset).lamps.engine with output := false },
        abs := { (s.begin .partReset).lamps.abs with output := false } } } : State).afterReset).store.image x =
      u.store.image x := fun x => image_congr rfl rfl x
  refine ⟨?_, fun p => ?_, fun x => ?_, fun x => ?_, hidle⟩
  · rw [hframe]
    rfl
  · cases p <;> exact congrArg (fun l => { PortIf.reset with link := l }) (abandon_abandon _)
  · rw [himage]
    exact himages x
  · rw [himage]
    exact hcanonical x

/-! ### The chain -/

def slotImages (images : Vector Mem 16) (i : SlotNo) : SlotImage := readSlotImage images[i]

/-- What the load makes of the image of each slot. -/
def loads (images : Vector Mem 16) (i : SlotNo) : SlotLoad := slotLoad (slotImages images) images[i] i

/-- A part reset from `s`: the values after part reset in `u`, the slots placed in `t1`, shown in `t2`, and the index list
written in `t`. -/
structure LoadRun (s u t1 t2 t : State) : Prop where
  reset   : ResetState s u
  placed  : Placed (loads u.store.images) (u.loadHeader (slotImages u.store.images)) 16 t1
  shown   : Shown (List.finRange 16) t1 t2
  indexed : Indexed t2 t

theorem load_runs {s u : State} (h : ResetState s u) : ∃ t1 t2, LoadRun s u t1 t2 u.load := by
  have hheader := loadHeader_eq u (slotImages u.store.images)
  have himages : (u.loadHeader (slotImages u.store.images)).store.images = u.store.images := by rw [hheader]; rfl
  have hzero : Placed (loads u.store.images) (u.loadHeader (slotImages u.store.images)) 0
      (u.loadHeader (slotImages u.store.images)) := by
    refine placed_zero (fun i => ?_) (fun b => ?_) ?_ ?_
    · rw [hheader, h.frame]
      exact Vector.getElem_replicate ..
    · rw [hheader, h.frame]
      exact Vector.getElem_replicate ..
    · rw [hheader, h.frame]
      rfl
    · rw [hheader, h.frame]
      exact nodup_noted List.nodup_nil ..
  have hplaced := foldl_loadSlot (images := slotImages u.store.images)
    (s := u.loadHeader (slotImages u.store.images)) (fun j c => slotLoad_frame_wf c) (by rw [himages]; exact hzero)
  rw [himages] at hplaced
  have hshown := foldl_showLoaded (List.nodup_finRange 16)
    ((List.finRange 16).foldl (State.loadSlot (slotImages u.store.images)) (u.loadHeader (slotImages u.store.images)))
  refine ⟨_, _, h, hplaced, hshown, loadIndex_indexed ?_⟩
  rw [hshown.frame, hplaced.frame, hheader, h.frame]
  rfl

theorem exec_partReset (s : State) :
    ∃ u t1 t2 t, exec .partReset s = .next (t.raise .loadComplete) ∧ LoadRun s u t1 t2 t := by
  have hx : exec .partReset s = .next
      ((if s.held then s.begin .partReset else (s.begin .partReset).hold).afterReset.load.raise .loadComplete) := rfl
  have hreset : ResetState s (if s.held then s.begin .partReset else (s.begin .partReset).hold).afterReset := by
    split
    exacts [afterReset_held s, afterReset_hold s]
  obtain ⟨t1, t2, hrun⟩ := load_runs hreset
  exact ⟨_, t1, t2, _, hx, hrun⟩

/-! ### The state after it, field by field -/

theorem loadHeader_frame (u : State) (images : SlotNo → SlotImage) :
    u.loadHeader images = { u with
      sup := { u.sup with rideNumber := settledRide u.store.header images },
      store := (u.loadHeader images).store } := by
  rw [loadHeader_eq]

section Chain
variable {s u t1 t2 t : State} (r : LoadRun s u t1 t2 t)
include r

theorem run_store : t.store = t1.store := by rw [r.indexed.frame, r.shown.frame]

theorem run_pool : t.pool = t1.pool := by rw [r.indexed.frame, r.shown.frame]

theorem run_slots : t.slots = t1.slots := by rw [r.indexed.frame, r.shown.frame]

theorem run_index : t.index = indexOf t.slots := by
  have hslots : t2.slots = t.slots := by rw [r.indexed.frame]
  rw [← hslots, r.indexed.frame]

theorem run_images : t.store.header = u.store.header ∧ t.store.images = u.store.images := by
  rw [run_store r, r.placed.frame, loadHeader_eq]
  exact ⟨rfl, rfl⟩

theorem run_ports : t.ports = u.ports := by
  rw [r.indexed.frame, r.shown.frame, r.placed.frame, loadHeader_frame]

theorem run_rideNumber : t.sup.rideNumber = settledRide t.store.header (slotImages t.store.images) := by
  obtain ⟨hheader, himages⟩ := run_images r
  rw [hheader, himages, r.indexed.frame, r.shown.frame, r.placed.frame, loadHeader_frame]

theorem run_inFlight : t.inFlight = (List.finRange 16).filterMap (loadedNotice t.slots) := by
  rw [run_slots r, r.indexed.frame, r.shown.frame, r.placed.frame, loadHeader_frame, r.reset.frame]
  rfl

theorem run_frame :
    t = { State.reset with
      pending := s.pending, inFlight := t.inFlight, stores := t.stores, tears := t.tears, srr := t.srr,
      ports := t.ports, pool := t.pool, slots := t.slots, index := t.index,
      sup := { Supervisor.reset with rideNumber := t.sup.rideNumber },
      store := { t.store with writing := none, supplyLow := s.store.supplyLow } } := by
  rw [r.indexed.frame, r.shown.frame, r.placed.frame, loadHeader_eq, r.reset.frame]
  rfl

end Chain

end Sys2Proof.PartReset
end

section
/-! SUPPORT. What a part reset leaves in the slots, the pool, the store and the SRR (R161 to R167). -/

namespace Sys2Proof.PartReset
open Sys2Proof.Machine Sys2Proof.Requests

theorem slotImages_fromImage {images : Vector Mem 16} {i : SlotNo} {r : Record} (h : slotImages images i = .record r) :
    FromImage r := readSlotImage_fromImage h

section Chain
variable {s u t1 t2 t : State} (h : LoadRun s u t1 t2 t)
include h

/-! ### The slots -/

theorem run_slot (i : SlotNo) :
    t.slots[i] = (loads t.store.images i).placed (bufferAt (loads t.store.images) i) := by
  have hslots : t.slots[i] = t1.slots[i] := by rw [run_slots h]
  rw [hslots, h.placed.slots, if_pos i.isLt, (run_images h).2]

theorem run_slot_free {i : SlotNo} (hn : ∀ r, ¬ Kept (slotImages t.store.images) i r) : t.slots[i] = none :=
  (run_slot h i).trans (placed_unkept hn _)

theorem run_slot_kept {i : SlotNo} {r : Record} (hr : Kept (slotImages t.store.images) i r) :
    ∃ q, t.slots[i] = some q ∧
      PlacedRecord t.store.images[i] i (bufferAt (loads t.store.images) i) r q := by
  rw [run_slot h]
  exact placed_kept hr (slotImages_fromImage hr.1) _

/-- Every record in a slot is one that the image keeps. -/
theorem run_slot_from {i : SlotNo} {q : Record} (hq : t.slots[i] = some q) :
    ∃ r, Kept (slotImages t.store.images) i r ∧
      PlacedRecord t.store.images[i] i (bufferAt (loads t.store.images) i) r q := by
  by_cases hk : ∃ r, Kept (slotImages t.store.images) i r
  · obtain ⟨r, hr⟩ := hk
    obtain ⟨q', hq', hplaced⟩ := run_slot_kept h hr
    cases hq.symm.trans hq'
    exact ⟨r, hr, hplaced⟩
  · exact nomatch hq.symm.trans (run_slot_free h (not_exists.1 hk))

theorem run_eventMemory : t.EventMemoryWf := by
  refine ⟨fun i q hq => ?_, fun i j q q' hq hq' hf => ?_, run_index h⟩
  · obtain ⟨r, hr, hplaced⟩ := run_slot_from h hq
    obtain ⟨_, hepisode, _, hocc, hage, hclean⟩ := slotImages_fromImage hr.1
    have hfields := hplaced.fields
    refine ⟨?_, ?_, ?_, ?_⟩ <;> rw [hfields]
    · exact (computedState_fromImage (slotImages_fromImage hr.1)).symm
    · exact hocc
    · exact hage
    · exact hclean
  · obtain ⟨r, hr, hplaced⟩ := run_slot_from h hq
    obtain ⟨r', hr', hplaced'⟩ := run_slot_from h hq'
    rw [hplaced.fields, hplaced'.fields] at hf
    exact kept_unique hr hr' hf

/-! ### The pool -/

theorem run_buffer {b : BufNo} {c : Capture} :
    t.pool[b] = some c ↔
      ∃ j : SlotNo, (loads t.store.images j).frame = some c ∧ bufferAt (loads t.store.images) j = b := by
  have hpool : t.pool[b] = t1.pool[b] := by rw [run_pool h]
  rw [hpool, h.placed.pool, (run_images h).2]
  exact ⟨fun ⟨j, _, hj⟩ => ⟨j, hj⟩, fun ⟨j, hj⟩ => ⟨j, j.isLt, hj⟩⟩

theorem run_buffer_wf {b : BufNo} {c : Capture} (hc : t.pool[b] = some c) : c.Wf := by
  obtain ⟨j, hj, _⟩ := (run_buffer h).1 hc
  exact slotLoad_frame_wf c hj

/-- A slot whose image gives a frame holds a record with that frame in its buffer. -/
theorem run_frame_slot {i : SlotNo} {c : Capture} (hc : (loads t.store.images i).frame = some c) :
    ∃ q, t.slots[i] = some q ∧ q.frame = some (bufferAt (loads t.store.images) i) ∧ c.holder = .record i ∧
      c.state ≠ .opened := by
  obtain ⟨r, hr, hframed, himage⟩ := slotLoad_frame_kept hc
  obtain ⟨q, hq, hplaced⟩ := run_slot_kept h hr
  have hframe := captureOfImage_frame himage
  exact ⟨q, hq, (hplaced.sound hframed c himage).1, hframe.holder, captureOfImage_closed hframe⟩

/-- A record with a frame holds the one that its image gives. -/
theorem run_slot_frame {i : SlotNo} {q : Record} {b : BufNo} (hq : t.slots[i] = some q) (hb : q.frame = some b) :
    (loads t.store.images i).frame.isSome = true ∧ b = bufferAt (loads t.store.images) i := by
  obtain ⟨r, hr, hplaced⟩ := run_slot_from h hq
  rw [loads, slotLoad_kept hr]
  rcases record_cases t.store.images[i] i r with hf | ⟨hf, hc⟩ | ⟨c, hf, hc⟩
  · exact nomatch hb.symm.trans (hplaced.plain hf).1
  · exact nomatch hb.symm.trans (hplaced.unsound hf hc).1
  · rw [recordLoad_frame_iff.2 ⟨hf, hc⟩]
    exact ⟨rfl, Option.some.inj (hb.symm.trans (hplaced.sound hf c hc).1)⟩

theorem run_buffer_held {b : BufNo} {c : Capture} (hc : t.pool[b] = some c) :
    ∃ i q, c.holder = .record i ∧ c.state ≠ .opened ∧ t.slots[i] = some q ∧ q.frame = some b := by
  obtain ⟨i, hi, hb⟩ := (run_buffer h).1 hc
  obtain ⟨q, hq, hframe, hholder, hstate⟩ := run_frame_slot h hi
  exact ⟨i, q, hholder, hstate, hq, by rw [hframe, hb]⟩

theorem run_buffers_ordered {i j : SlotNo} {q q' : Record} {b b' : BufNo} (hij : i < j) (hq : t.slots[i] = some q)
    (hq' : t.slots[j] = some q') (hb : q.frame = some b) (hb' : q'.frame = some b') : b < b' := by
  obtain ⟨hi, rfl⟩ := run_slot_frame h hq hb
  obtain ⟨_, rfl⟩ := run_slot_frame h hq' hb'
  exact bufferAt_lt hij hi

theorem run_buffers_lowest {b b' : BufNo} (hlt : b' < b) (hb : t.pool[b] ≠ none) : t.pool[b'] ≠ none := by
  have hpool : ∀ b : BufNo, t.pool[b] = t1.pool[b] := fun b => by rw [run_pool h]
  rw [hpool, ne_eq, h.placed.used] at hb ⊢
  have hlt : b'.val < b.val := hlt
  omega

/-! ### The store -/

theorem run_damaged :
    t.store.damaged = true ↔ readHeaderImage t.store.header = none ∨ (∃ i, slotImages t.store.images i = .bad) ∨
      ∃ i r, Kept (slotImages t.store.images) i r ∧ Unsound t.store.images[i] i r := by
  obtain ⟨hheader, himages⟩ := run_images h
  have hfirst : (u.loadHeader (slotImages u.store.images)).store.damaged = true ↔
      readHeaderImage u.store.header = none := by
    rw [loadHeader_eq]
    change (u.store.damaged || _) = true ↔ _
    rw [h.reset.frame]
    simp [Store.delivered]
  rw [run_store h, h.placed.damaged, hfirst, ← run_store h, hheader, himages, ← exists_or]
  refine or_congr_right (exists_congr fun i => ?_)
  rw [and_iff_right i.isLt]
  exact slotLoad_damage_iff

theorem run_dirty_slot (i : SlotNo) :
    .slot i ∈ t.store.dirty ↔
      slotImages t.store.images i = .bad ∨
      (∃ r, slotImages t.store.images i = .record r ∧ ¬ Kept (slotImages t.store.images) i r) ∨
      ∃ r, Kept (slotImages t.store.images) i r ∧ (Unsound t.store.images[i] i r ∨ r.frameStatus = .capturing ∨
        r.state ≠ if r.lampLatch then .active else .stored) := by
  have hfirst : ImageId.slot i ∉ (u.loadHeader (slotImages u.store.images)).store.dirty := by
    rw [loadHeader_eq, mem_noted, h.reset.frame]
    rintro (hn | ⟨_, hn⟩) <;> cases hn
  rw [← slotLoad_mark_iff (m := t.store.images[i]) fun r => slotImages_fromImage, run_store h, h.placed.dirty,
    or_iff_right hfirst, ← run_store h, (run_images h).2]
  constructor
  · rintro ⟨j, _, hj, hm⟩
    cases hj
    exact hm
  · exact fun hm => ⟨i, i.isLt, rfl, hm⟩

theorem run_dirty_header :
    .header ∈ t.store.dirty ↔ readHeaderImage t.store.header ≠ some t.sup.rideNumber := by
  rw [run_rideNumber h, run_store h, h.placed.dirty, ← run_store h]
  obtain ⟨hheader, himages⟩ := run_images h
  rw [hheader, himages, loadHeader_eq, mem_noted, h.reset.frame]
  constructor
  · rintro ((hn | ⟨hn, _⟩) | ⟨j, _, hj, _⟩)
    · cases hn
    · exact of_decide_eq_true hn
    · cases hj
  · exact fun hn => .inl (.inr ⟨decide_eq_true hn, rfl⟩)

theorem run_dirtyWf : t.DirtyWf := by
  refine ⟨by rw [run_store h]; exact h.placed.nodup, fun w hw => ?_⟩
  rw [run_frame h] at hw
  cases hw

end Chain

end Sys2Proof.PartReset
end

section
/-! SUPPORT. The SRR after a part reset (R131, R161, R166): the loaded views, and zero everywhere else. -/

namespace Sys2Proof.PartReset
open Sys2Proof.Machine Sys2Proof.Requests

theorem inEventViews_bounds {a : Nat} (h : inEventViews a) : 0x1C00 ≤ a ∧ a < 0x1E20 := by
  rcases h with h | ⟨i, h⟩
  · unfold inIndexView indexView at h
    omega
  · unfold recordView at h
    omega

theorem inRecordWords_not_index {i : SlotNo} {a : Nat} (h : inRecordWords i a) : ¬ inIndexView a :=
  inRecordView_not_index ⟨h.1, by have := h.2; omega⟩

/-- An event view stands apart from the buffers. -/
theorem inEventViews_not_inBuffer {a : Nat} (h : inEventViews a) (b : BufNo) : ¬ inBuffer b a := fun hb => by
  have := inEventViews_bounds h
  have := inBuffer_bounds hb
  omega

/-- A word that reads 0 at all times is in no event view and in no buffer. -/
theorem readsZero_outside {a : Nat} (h : readsZero a) : ¬ inEventViews a ∧ ∀ b, ¬ inBuffer b a := by
  unfold readsZero at h
  refine ⟨?_, fun b hb => ?_⟩
  · rintro (hv | ⟨i, hv⟩)
    · unfold inIndexView indexView at hv
      omega
    · unfold recordView at hv
      omega
  · have := inBuffer_bounds hb
    omega

theorem faultView_bounds (f : FaultNo) : faultView f + 4 ≤ 0x0400 := by
  unfold faultView
  omega

theorem readRange_zero {m : Mem} {a n : Nat} (h : ∀ k, a ≤ k → k < a + n → m.read k = 0) :
    m.readRange a n = List.replicate n 0 := by
  refine List.eq_replicate_iff.2 ⟨readRange_length .., fun w hw => ?_⟩
  obtain ⟨k, hk, rfl⟩ := List.mem_map.1 hw
  have := List.mem_range.1 hk
  exact h _ (by omega) (by omega)

/-- A change counter that counts one rewrite, or none, is even. -/
theorem bit_counter (p : Prop) [Decidable p] : bit (if p then 0 else 2) 0 = false := by split <;> rfl

section Chain
variable {s u t1 t2 t : State} (h : LoadRun s u t1 t2 t)
include h

/-! ### What the steps of the load reach -/

theorem run_read {a : Nat} (ha : ¬ inEventViews a) : t.srr.read a = t1.srr.read a := by
  obtain ⟨hindex, hrecords⟩ := not_or.1 ha
  rw [h.indexed.reach a hindex, h.shown.reach a]
  rintro ⟨i, _, _, hi⟩
  exact hrecords ⟨i, hi⟩

/-- Outside the event views and the buffers in use the SRR is zero. -/
theorem run_zero {a : Nat} (ha : ¬ inEventViews a) (hb : ∀ b, inBuffer b a → t.pool[b] = none) : t.srr.read a = 0 := by
  rw [run_read h ha]
  refine h.placed.zero a fun b hin => ?_
  have hpool : t1.pool[b] = t.pool[b] := by rw [run_pool h]
  rw [hpool]
  exact hb b hin

/-- The event views are zero until the records are shown. -/
theorem placed_eventViews {a : Nat} (ha : inEventViews a) : t1.srr.read a = 0 :=
  h.placed.zero a fun b hb => absurd hb (inEventViews_not_inBuffer ha b)

/-! ### The record views -/

theorem run_recordView (i : SlotNo) :
    t.srr.readRange (recordView i) 10 = recordWords t.slots[i] ∧
      t.srr.read (recordView i + 10) = if t.slots[i] = none then 0 else 2 := by
  have hcounter : inRecordWords i (recordView i + 10) := ⟨by omega, by omega⟩
  have hread : ∀ a, inRecordWords i a → t.srr.read a = t2.srr.read a :=
    fun a ha => h.indexed.reach a (inRecordWords_not_index ha)
  have hslots : t.slots[i] = t1.slots[i] := by rw [run_slots h]
  by_cases hi : t.slots[i] = none
  · have hzero : ∀ a, inRecordWords i a → t.srr.read a = 0 := fun a ha => by
      rw [hread a ha, h.shown.reach a, placed_eventViews h (.inr ⟨i, ha⟩)]
      rintro ⟨j, _, hj, hin⟩
      cases inRecordWords_inj hin ha
      exact hj (hslots ▸ hi)
    rw [if_pos hi, hzero _ hcounter, hi]
    exact ⟨readRange_zero fun a h1 h2 => hzero a ⟨h1, by omega⟩, rfl⟩
  · have hshown := h.shown.view i (List.mem_finRange i) (hslots ▸ hi)
    obtain ⟨hwords, hcount⟩ := recordRewritten_congr (s' := t1) (t' := t) hshown
      (by rw [h.indexed.frame]) (fun _ _ => rfl) hread
    rw [placed_eventViews h (.inr ⟨i, hcounter⟩)] at hcount
    rw [if_neg hi]
    exact ⟨hwords, hcount⟩

/-! ### The index list -/

theorem shown_indexView {a : Nat} (ha : inIndexView a) : t2.srr.read a = 0 := by
  rw [h.shown.reach a, placed_eventViews h (.inl ha)]
  rintro ⟨i, _, _, hi⟩
  exact inRecordWords_not_index hi ha

theorem run_indexView :
    t.srr.readRange indexView 1 ++ t.srr.readRange (indexView + 2) 30
        = BitVec.ofNat 16 t.index.length :: indexWords t.index ∧
      t.srr.read (indexView + 1) = if t.index = [] then 0 else 2 := by
  have hindex : t.index = indexOf t2.slots := by rw [h.indexed.frame]
  have hcounter : inIndexView (indexView + 1) := ⟨by omega, by omega⟩
  by_cases hn : t.index = []
  · have hsame : t.srr = t2.srr := h.indexed.kept (hindex ▸ hn)
    have hzero : ∀ a, inIndexView a → t.srr.read a = 0 := fun a ha => by rw [hsame, shown_indexView h ha]
    rw [readRange_zero fun a h1 h2 => hzero a ⟨h1, by omega⟩,
      readRange_zero fun a h1 h2 => hzero a ⟨by omega, by omega⟩, if_pos hn, hzero _ hcounter, hn]
    exact ⟨rfl, rfl⟩
  · obtain ⟨hwords, hcount⟩ := h.indexed.view (hindex ▸ hn)
    rw [shown_indexView h hcounter] at hcount
    rw [if_neg hn]
    exact ⟨hwords, hcount⟩

/-! ### The buffers -/

/-- A loaded frame stands in its buffer as its image has it. -/
theorem run_filled {j : SlotNo} {c : Capture} (hc : (loads t.store.images j).frame = some c) :
    Filled t.srr t.store.images[j] (bufferAt (loads t.store.images) j) c := by
  have hpool : t.pool[bufferAt (loads t.store.images) j] = some c := (run_buffer h).2 ⟨j, hc, rfl⟩
  refine filled_congr (run_buffer_wf h hpool) ?_ fun a ha =>
    run_read h fun hv => inEventViews_not_inBuffer hv _ ha
  have himages : (u.loadHeader (slotImages u.store.images)).store.images = t.store.images := by
    rw [(run_images h).2, loadHeader_eq]
    rfl
  have hfilled := h.placed.filled j c j.isLt (by rw [← (run_images h).2]; exact hc)
  rw [himages, ← (run_images h).2] at hfilled
  exact hfilled

/-- Every buffer: its header shows what it holds, and it is zero behind the samples of its frame. -/
theorem run_bufferView (b : BufNo) :
    t.srr.readRange (bufferBase b) 7 = headerWords t.pool[b] ∧
      t.srr.read (bufferBase b + 7) = (if t.pool[b] = none then 0 else 2) ∧
      ∀ a, placeAddress b (samplesCounted t.pool[b]) ≤ a → inBuffer b a → t.srr.read a = 0 := by
  cases hb : t.pool[b] with
  | none =>
    have hzero : ∀ a, inBuffer b a → t.srr.read a = 0 := fun a ha =>
      run_zero h (fun hv => inEventViews_not_inBuffer hv b ha) fun b' hb' => inBuffer_inj ha hb' ▸ hb
    exact ⟨readRange_zero fun a h1 h2 => hzero a ⟨h1, by omega⟩, hzero _ ⟨by omega, by omega⟩,
      fun a _ ha => hzero a ha⟩
  | some c =>
    obtain ⟨j, hj, rfl⟩ := (run_buffer h).1 hb
    obtain ⟨hheader, hcounter, _, hrest⟩ := run_filled h hj
    exact ⟨hheader, hcounter, hrest⟩

/-! ### The invariants -/

theorem run_viewsFaithful : t.ViewsFaithful := by
  refine ⟨fun f => ?_, fun i => ?_, ?_, fun b => ?_⟩
  · have hzero : ∀ a, a < 0x0400 → t.srr.read a = 0 := fun a ha =>
      run_zero h (fun hv => by have := inEventViews_bounds hv; omega)
        fun b hb => by have := inBuffer_bounds hb; omega
    have hbounds := faultView_bounds f
    have hfault : t.faults[f] = FaultEntry.reset := by
      rw [run_frame h]
      exact Vector.getElem_replicate ..
    rw [hfault, hzero _ (by omega), hzero _ (by omega), hzero _ (by omega), hzero _ (by omega)]
    decide
  · obtain ⟨hwords, hcounter⟩ := run_recordView h i
    rw [hcounter]
    exact ⟨hwords, bit_counter _⟩
  · obtain ⟨hwords, hcounter⟩ := run_indexView h
    rw [hcounter]
    exact ⟨hwords, bit_counter _⟩
  · obtain ⟨hwords, hcounter, _⟩ := run_bufferView h b
    rw [hcounter]
    exact ⟨hwords, bit_counter _⟩

theorem run_memoryWf (hs : s.MemoryWf) : t.MemoryWf := by
  obtain ⟨hheader, himages⟩ := run_images h
  have hcanonical : ∀ x n, imageLength x = n → (s.store.image x).Canonical n → (u.store.image x).Canonical n :=
    fun x n hn hx => (h.reset.canonical x).elim (fun he => he ▸ hx) fun hc => hn ▸ hc
  refine ⟨h.indexed.canonical (h.shown.canonical h.placed.canonical), fun a ha => ?_, ?_, fun i => ?_,
    fun w hw => ?_, fun b c hc => run_buffer_wf h hc⟩
  · obtain ⟨hviews, hbuffers⟩ := readsZero_outside ha
    exact run_zero h hviews fun b hb => absurd hb (hbuffers b)
  · rw [hheader]
    exact hcanonical .header 3 rfl hs.header
  · have hi : t.store.images[i] = u.store.images[i] := by rw [himages]
    rw [hi]
    exact hcanonical (.slot i) Config.slotImageWords rfl (hs.images i)
  · rw [run_frame h] at hw
    cases hw

end Chain

end Sys2Proof.PartReset
end

section
/-! PROOF. Obligation O60: a part reset from its hold to the end of START-UP. -/

namespace Sys2Proof.PartReset
open Sys2Proof.Machine Sys2Proof.Requests

theorem not_framed_iff {f : FrameStatus} : ¬ f.framed = true ↔ f = .none ∨ f = .missed := by
  cases f <;> simp [FrameStatus.framed]

/-- The intake settles a queue that is as after part reset but for its level conditions (R30). -/
theorem settledQueue_eq (s : State) (p : Port) :
    settledQueue s p = { Queue.reset with
      almostEmpty := (settledQueue s p).almostEmpty, almostFull := (settledQueue s p).almostFull } := rfl

/-! ### The event of the end of the load, raised last -/

theorem memoryWf_raise {t : State} (h : t.MemoryWf) (c : Instr) : (t.raise c).MemoryWf :=
  ⟨h.srr, h.zeros, h.header, h.images, h.writing, h.captures⟩

theorem eventMemoryWf_raise {t : State} (h : t.EventMemoryWf) (c : Instr) : (t.raise c).EventMemoryWf :=
  ⟨h.records, h.single, h.index⟩

theorem viewsFaithful_raise {t : State} (h : t.ViewsFaithful) (c : Instr) : (t.raise c).ViewsFaithful :=
  ⟨h.faults, h.records, h.index, h.frames⟩

theorem dirtyWf_raise {t : State} (h : t.DirtyWf) (c : Instr) : (t.raise c).DirtyWf := ⟨h.once, h.inFlight⟩

section Chain
variable {s u t1 t2 t : State} (h : LoadRun s u t1 t2 t)
include h

theorem run_portLinks (p : Port) :
    t.ports.get p =
      { PortIf.reset with link := if (s.ports.get p).link = .deselected then .deselected else .abandoned } := by
  rw [run_ports h, h.reset.ports p]

theorem run_image (x : ImageId) : t.store.image x = u.store.image x :=
  image_congr (run_images h).1 (run_images h).2 x

theorem run_imagesCut : ImagesCut s t.store := fun x => by
  rw [run_image h]
  exact h.reset.images x

theorem run_imagesIdle (hw : s.store.writing = none) :
    t.store.header = s.store.header ∧ t.store.images = s.store.images := by
  obtain ⟨hheader, himages⟩ := run_images h
  rw [hheader, himages]
  exact h.reset.idle hw

/-- A kept record whose frame is sound holds it in its buffer, with the samples of the image in their places (R166). -/
theorem run_soundFrame {i : SlotNo} {r q : Record} {c : Capture} (hr : Kept (slotImages t.store.images) i r)
    (hq : PlacedRecord t.store.images[i] i (bufferAt (loads t.store.images) i) r q)
    (hframed : r.frameStatus.framed = true) (hc : captureOfImage t.store.images[i] i r = some c) :
    ∃ b, q.frame = some b ∧ t.pool[b] = some c ∧
      q.frameStatus = (if r.frameStatus = .complete then .complete else .short) ∧
      q.preShort = r.preShort ∧ q.gap = r.gap ∧
      ∀ k, k < c.preGot + c.postGot →
        t.srr.readRange (placeAddress b k) 8 = (t.store.images[i]).readRange (imagePlace k) 8 := by
  obtain ⟨hframe, hstatus, hshort, hgap⟩ := hq.sound hframed c hc
  have hload : (loads t.store.images i).frame = some c := by
    rw [loads, slotLoad_kept hr]
    exact recordLoad_frame_iff.2 ⟨hframed, hc⟩
  exact ⟨_, hframe, (run_buffer h).2 ⟨i, hload, rfl⟩, hstatus, hshort, hgap, (run_filled h hload).samples⟩

/-- With a bad header image the header is marked, and the ride number comes from the records (R162). -/
theorem run_badHeader (hbad : readHeaderImage t.store.header = none) :
    .header ∈ t.store.dirty ∧ (t.sup.rideNumber = 0 ∨
      ∃ i r, Kept (slotImages t.store.images) i r ∧ r.lastRide = t.sup.rideNumber) := by
  refine ⟨(run_dirty_header h).2 (by rw [hbad]; nofun), ?_⟩
  rw [run_rideNumber h]
  exact settledRide_of_bad hbad

/-- With a valid header image the header is marked where a record has a later ride number (R162). -/
theorem run_validHeader {n : Word} (hn : readHeaderImage t.store.header = some n) :
    n ≤ t.sup.rideNumber ∧ (.header ∈ t.store.dirty ↔ t.sup.rideNumber ≠ n) ∧ (t.sup.rideNumber = n ∨
      ∃ i r, Kept (slotImages t.store.images) i r ∧ r.lastRide = t.sup.rideNumber) := by
  obtain ⟨hle, hfrom⟩ := settledRide_of_valid (images := slotImages t.store.images) hn
  rw [run_dirty_header h, hn, ne_eq, Option.some_inj, eq_comm, run_rideNumber h]
  exact ⟨hle, Iff.rfl, hfrom⟩

end Chain

/-- Settles O60: the hold and the end of START-UP are one equation each, and the release a chain from the values after part
reset over the slots, the views and the index list. -/
theorem resetLoadsTheImages : Obligations.ResetLoadsTheImages := by
  intro s
  refine ⟨resetHold_holds s, fun hs => ?_, fun hheld => ⟨fun hm => ?_, loadComplete_idle hheld⟩⟩
  · obtain ⟨u, t1, t2, t, hx, h⟩ := exec_partReset s
    refine ⟨_, hx, congrArg (State.raise · .loadComplete) (run_frame h), fun p => (run_portLinks h p :),
      fun a hv hb => ?_, fun i => (run_recordView h i :).2, (run_indexView h :).2, fun b => (run_bufferView h b :).2,
      memoryWf_raise (run_memoryWf h hs) _, eventMemoryWf_raise (run_eventMemory h) _,
      viewsFaithful_raise (run_viewsFaithful h) _, dirtyWf_raise (run_dirtyWf h) _,
      fun hw => (run_imagesIdle h hw :), (run_imagesCut h :), fun i hn => (run_slot_free h hn :), fun i r hr => ?_,
      fun b c hc => (run_buffer_held h hc :), fun i j q q' b b' hij hq hq' => (run_buffers_ordered h hij hq hq' :),
      fun b b' hlt => (run_buffers_lowest h hlt :), (run_damaged h :), (run_dirty_slot h :),
      congrArg (· ++ [Instr.loadComplete]) (run_inFlight h), fun i r hr => ?_, (run_badHeader h :),
      fun n hn => (run_validHeader h hn :)⟩
    · exact run_zero h hv fun b hb' => absurd hb' (hb b)
    · obtain ⟨q, hslot, hq⟩ := run_slot_kept h hr
      refine ⟨q, hslot, hq.fields, fun hn => hq.plain (not_framed_iff.2 hn), fun hf => ?_⟩
      have hframed := framed_iff.2 hf
      exact ⟨hq.unsound hframed, fun c => run_soundFrame h hr hq hframed⟩
    · exact (le_settledRide hr).trans_eq (run_rideNumber h).symm
  · have hread := read_endMemory_control s
    refine ⟨_, exec_loadComplete hheld hm, rfl, ⟨fun p a => read_endMemory_standing s, fun a => endMemory_reach s⟩,
      fun hc => started_controlArea (hc.quiet hm), hread (0x0000, Config.partCode) (by simp [controlWords]),
      hread (0x0001, Config.revision) (by simp [controlWords]), List.getLast?_concat, fun p => ?_, rfl⟩
    rw [settledQueue_started]
    exact ⟨settledQueue_eq .., levelled_levelsHold ..⟩

end Sys2Proof.PartReset
end

section
/-! PROOF. Obligation O28: the magnitude, the rounded step and the clamped update (R53 to R57), and
where an update leaves
the accumulator of a fault whose definition is in its ranges. -/

namespace Sys2Proof.Qualifier
open Sys2Proof.Machine

/-! ### The magnitude (R53) -/

theorem magnitude_fixed {d : Definition} (h : d.fixed = true) (dev : Word) : magnitude d dev = 32768 := if_pos h

theorem magnitude_linear {d : Definition} (h : d.fixed = false) (dev : Word) :
    magnitude d dev = dev.toInt.natAbs := by
  simp [magnitude, h]

theorem deviation_range (dev : Word) : -32768 ≤ dev.toInt ∧ dev.toInt < 32768 :=
  ⟨BitVec.le_toInt dev, BitVec.toInt_lt⟩

/-- The most negative deviation alone reaches 32768. -/
theorem natAbs_deviation_lt {dev : Word} (h : dev ≠ 0x8000#16) : dev.toInt.natAbs ≤ 32767 := by
  have hrange := deviation_range dev
  have hne : dev.toInt ≠ -32768 := fun he => h (BitVec.eq_of_toInt_eq he)
  omega

theorem magnitude_le (d : Definition) (dev : Word) : magnitude d dev ≤ 32768 := by
  have hrange := deviation_range dev
  unfold magnitude
  split <;> omega

/-! ### The step (R54, R55) -/

theorem stepOf_eq_max (g m : Nat) : stepOf g m = max 1 ((g * m + 16384) / 32768) := by
  unfold stepOf
  dsimp only
  split <;> omega

theorem one_le_stepOf (g m : Nat) : 1 ≤ stepOf g m := by
  rw [stepOf_eq_max]
  exact Nat.le_max_left ..

theorem stepOf_le {g m : Nat} (hg : g ≤ 32767) (hm : m ≤ 32768) : stepOf g m ≤ 32767 := by
  have hgm : g * m ≤ 32767 * 32768 := Nat.mul_le_mul hg hm
  rw [stepOf_eq_max]
  omega

/-- A product below a half rounds to 0, and the step is 1. -/
theorem stepOf_small {g m : Nat} (h : 2 * (g * m) < 32768) : stepOf g m = 1 := by
  rw [stepOf_eq_max]
  omega

/-- From a half on, the step is the nearest integer, and the higher of two. -/
theorem stepOf_nearest {g m : Nat} (h : 32768 ≤ 2 * (g * m)) :
    2 * (stepOf g m * 32768) ≤ 2 * (g * m) + 32768 ∧ 2 * (g * m) + 32768 < 2 * (stepOf g m * 32768) + 65536 := by
  rw [stepOf_eq_max]
  omega

theorem stepOf_fixed {g : Nat} (h : 1 ≤ g) : stepOf g 32768 = g := by
  rw [stepOf_eq_max]
  omega

/-! ### The update (R56, R57) -/

/-- The gain of the outcome (R54). -/
def gainOf (d : Definition) (fails : Bool) : Nat := if fails then d.gF else d.gP

/-- By how much a report of `n` outcomes moves the accumulator. -/
def movement (d : Definition) (fails : Bool) (n : Nat) (dev : Word) : Nat :=
  n * stepOf (gainOf d fails) (magnitude d dev)

/-- The accumulator after the jump and the steps, before the clamp. -/
def movedAcc (d : Definition) (fails : Bool) (n : Nat) (dev : Word) (a : Int) : Int :=
  if fails then jumpFrom d fails a + movement d fails n dev else jumpFrom d fails a - movement d fails n dev

theorem updatedAcc_eq (d : Definition) (fails : Bool) (n : Nat) (dev : Word) (a : Int) :
    updatedAcc d fails n dev a = d.clamp (movedAcc d fails n dev a) := rfl

theorem gainOf_range {d : Definition} (h : d.Wf) (fails : Bool) : 1 ≤ gainOf d fails ∧ gainOf d fails ≤ 32767 := by
  cases fails
  exacts [h.gP, h.gF]

theorem one_le_movement (d : Definition) (fails : Bool) {n : Nat} (hn : 1 ≤ n) (dev : Word) :
    1 ≤ movement d fails n dev := Nat.mul_le_mul hn (one_le_stepOf ..)

theorem movement_le {d : Definition} (h : d.Wf) (fails : Bool) {n : Nat} (hn : n ≤ 255) (dev : Word) :
    movement d fails n dev ≤ 255 * 32767 :=
  Nat.mul_le_mul hn (stepOf_le (gainOf_range h fails).2 (magnitude_le d dev))

/-- H lies below 0 and C above it (R20, R24). -/
theorem thresholds_range {d : Definition} (h : d.Wf) :
    (-2000000 ≤ d.healAt ∧ d.healAt < 0) ∧ 0 < d.confirmAt ∧ d.confirmAt ≤ 2000000 := by
  have hheal := h.healMag
  have hconfirm := h.confirm
  unfold Definition.healAt Definition.confirmAt
  omega

theorem clamp_eq_max {d : Definition} (h : d.healAt ≤ d.confirmAt) (a : Int) :
    d.clamp a = max d.healAt (min d.confirmAt a) := by
  unfold Definition.clamp
  split_ifs <;> omega

/-- A jump goes to 0 or nowhere, and it never goes against the report. -/
theorem jumpFrom_cases (d : Definition) (fails : Bool) (a : Int) :
    jumpFrom d fails a = a ∨ (jumpFrom d fails a = 0 ∧ if fails then a < 0 else 0 < a) := by
  by_cases h : d.jump = true ∧ if fails then a < 0 else 0 < a
  · exact .inr ⟨if_pos h, h.2⟩
  · exact .inl (if_neg h)

/-- The statement's own spelling of the jump. -/
theorem jumpFrom_eq (d : Definition) (fails : Bool) (a : Int) :
    jumpFrom d fails a =
      if d.jump = true ∧ ((fails = true ∧ a < 0) ∨ (fails = false ∧ 0 < a)) then 0 else a := by
  cases fails <;> simp [jumpFrom]

theorem movedAcc_range {d : Definition} (h : d.Wf) (fails : Bool) {n : Nat} (hn : n ≤ 255) (dev : Word) {a : Int}
    (hlow : d.healAt ≤ a) (hhigh : a ≤ d.confirmAt) :
    movedAcc d fails n dev a ≤ 10355585 ∧ -10355585 ≤ movedAcc d fails n dev a := by
  have hmove := movement_le h fails hn dev
  have hrange := thresholds_range h
  have hjump := jumpFrom_cases d fails a
  unfold movedAcc
  cases fails <;> simp only [if_true, if_false, Bool.false_eq_true] at hjump ⊢ <;> omega

/-- A FAIL ends above H and at most at C. -/
theorem updatedAcc_fail {d : Definition} (h : d.Wf) {n : Nat} (hn : 1 ≤ n) (dev : Word) {a : Int}
    (ha : d.healAt ≤ a) : d.healAt < updatedAcc d true n dev a ∧ updatedAcc d true n dev a ≤ d.confirmAt := by
  have hmove := one_le_movement d true hn dev
  have hrange := thresholds_range h
  have hjump := jumpFrom_cases d true a
  rw [updatedAcc_eq, clamp_eq_max (by omega)]
  simp only [movedAcc, if_true] at hjump ⊢
  omega

/-- A PASS ends at H or above it, and below C. -/
theorem updatedAcc_pass {d : Definition} (h : d.Wf) {n : Nat} (hn : 1 ≤ n) (dev : Word) {a : Int}
    (ha : a ≤ d.confirmAt) : d.healAt ≤ updatedAcc d false n dev a ∧ updatedAcc d false n dev a < d.confirmAt := by
  have hmove := one_le_movement d false hn dev
  have hrange := thresholds_range h
  have hjump := jumpFrom_cases d false a
  rw [updatedAcc_eq, clamp_eq_max (by omega)]
  simp only [movedAcc, Bool.false_eq_true, if_false] at hjump ⊢
  omega

/-- A PASS that finds the accumulator at or below 0 leaves it below 0. -/
theorem updatedAcc_pass_neg {d : Definition} (h : d.Wf) {n : Nat} (hn : 1 ≤ n) (dev : Word) {a : Int} (ha : a ≤ 0) :
    updatedAcc d false n dev a < 0 := by
  have hmove := one_le_movement d false hn dev
  have hrange := thresholds_range h
  have hjump := jumpFrom_cases d false a
  rw [updatedAcc_eq, clamp_eq_max (by omega)]
  simp only [movedAcc, Bool.false_eq_true, if_false] at hjump ⊢
  omega

/-- Settles O28: the magnitude, the step and the update in turn. -/
theorem updateMovesByTheRoundedStep : Obligations.UpdateMovesByTheRoundedStep := by
  refine ⟨fun d dev => ⟨fun h => magnitude_fixed h dev, fun h => ?_⟩, fun g m hg hg' hm => ?_, ?_⟩
  · rw [magnitude_linear h]
    exact ⟨rfl, magnitude_linear h dev ▸ magnitude_le d dev, fun hd => by rw [hd]; rfl, natAbs_deviation_lt⟩
  · exact ⟨one_le_stepOf g m, stepOf_le hg' hm, stepOf_small, stepOf_nearest, stepOf_fixed hg⟩
  · intro d fails n dev a hd hlow hhigh hn hn' start by' moved
    have hmoved : moved = movedAcc d fails n dev a := by
      unfold movedAcc
      rw [jumpFrom_eq]
      rfl
    have hrange := movedAcc_range hd fails hn' dev hlow hhigh
    rw [← hmoved] at hrange
    refine ⟨hrange.1, hrange.2, ?_, ?_, ?_⟩
    · rw [updatedAcc_eq, hmoved, clamp_eq_max (hlow.trans hhigh)]
    · rintro rfl
      exact (updatedAcc_fail hd hn dev hlow).1.ne'
    · rintro rfl
      exact (updatedAcc_pass hd hn dev hhigh).2.ne

end Sys2Proof.Qualifier
end

section
/-! PROOF. Obligations O29 and O30: what a report does to its fault's entry (R58 to R69), state by
state, and that an entry in
order stays so. -/

namespace Sys2Proof.Qualifier
open Sys2Proof.Machine

/-! ### Entries in order -/

/-- A defined entry is in order when its definition, its accumulator, its T and its capture reference are. -/
theorem wf_of_defined {e : FaultEntry} {d : Definition} (hd : e.defn = some d) (hdwf : d.Wf)
    (hadmits : e.phase.admits d e.acc) (htrigger : e.trigger.isSome = e.phase.episodeOpen)
    (hcapture : e.phase ≠ .suspect → e.capture = none) : e.Wf where
  undefined := fun hn => by rw [hd] at hn; cases hn
  defined := fun d' hd' => by
    cases hd.symm.trans hd'
    exact ⟨hdwf, hadmits⟩
  trigger := htrigger
  capture := hcapture

/-- Every state has the accumulator in H..C (R57). -/
theorem admits_range {d : Definition} (h : d.Wf) {ph : Phase} {a : Int} (ha : ph.admits d a) :
    d.healAt ≤ a ∧ a ≤ d.confirmAt := by
  have hrange := thresholds_range h
  cases ph <;> simp only [Phase.admits] at ha <;> omega

theorem trigger_of_open {e : FaultEntry} (h : e.Wf) (ho : e.phase.episodeOpen = true) : ∃ T, e.trigger = some T :=
  Option.isSome_iff_exists.1 (h.trigger.trans ho)

theorem trigger_of_closed {e : FaultEntry} (h : e.Wf) (hc : e.phase.episodeOpen = false) : e.trigger = none :=
  Option.isSome_eq_false_iff.1 (h.trigger.trans hc) |> Option.isNone_iff_eq_none.1

theorem capture_of_closed {e : FaultEntry} (h : e.Wf) (hc : e.phase.episodeOpen = false) : e.capture = none :=
  h.capture fun hs => by rw [hs] at hc; cases hc

/-- The states with an open episode. -/
theorem episodeOpen_iff {ph : Phase} :
    ph.episodeOpen = true ↔ ph = .suspect ∨ ph = .confirmed ∨ ph = .recovering := by
  cases ph <;> simp [Phase.episodeOpen]

theorem episodeClosed_iff {ph : Phase} :
    ph.episodeOpen = false ↔ ph = .untested ∨ ph = .passing ∨ ph = .passed := by
  cases ph <;> simp [Phase.episodeOpen]

theorem phase_cases (ph : Phase) :
    ph.episodeOpen = false ∨ ph = .suspect ∨ (ph = .confirmed ∨ ph = .recovering) := by
  rw [← episodeOpen_iff]
  exact (Bool.eq_false_or_eq_true _).symm

/-- Of the states with no open episode none has the accumulator above 0. -/
theorem admits_closed {d : Definition} (h : d.Wf) {ph : Phase} {a : Int} (ha : ph.admits d a)
    (hc : ph.episodeOpen = false) : a ≤ 0 := by
  have hrange := thresholds_range h
  rcases episodeClosed_iff.1 hc with rfl | rfl | rfl <;> simp only [Phase.admits] at ha <;> omega

/-! ### The events of a report, as the statements spell them -/

theorem demandEvents_self (f : FaultNo) (d : Definition) (ph : Phase) : demandEvents f d ph ph = [] :=
  if_neg fun h => h.1 rfl

theorem demandEvents_eq (f : FaultNo) (d : Definition) (old new : Phase) :
    demandEvents f d old new = if new ≠ old ∧ d.lamp ≠ .none then [.demandNotice f] else [] := by
  simp only [demandEvents, ne_comm]

theorem confirmEvents_eq (f : FaultNo) (d : Definition) (ep : EpisodeId) (time : Time) :
    confirmEvents f d ep time =
      (if d.ring = none then [] else [.confirmNotice f ep]) ++
        [.confirmEvent f ep time d.priority d.lamp d.pattern (decide (d.ring = none)),
          .latchRequest d.source ⟨.confirm, some f⟩] := by
  unfold confirmEvents
  cases d.ring <;> rfl

theorem openEpisode_eq {e : FaultEntry} {T : Time} (h : e.trigger = some T) :
    e.openEpisode = { number := e.episode, time := T } := by
  rw [FaultEntry.openEpisode, h]
  rfl

/-! ### The state machine, state by state -/

/-- The entry with its accumulator moved and tested where that reached a threshold (R57, R63). -/
def movedEntry (d : Definition) (fails : Bool) (n : Nat) (dev : Word) (e : FaultEntry) : FaultEntry :=
  { e with acc := updatedAcc d fails n dev e.acc, tested := e.tested || d.atThreshold (updatedAcc d fails n dev e.acc) }

section Report
variable (f : FaultNo) (d : Definition) (n : Nat) (dev : Word) (time : Time) {e : FaultEntry}

/-- The entry with an episode opened, and its name (R59, R64). -/
def openedEntry (e : FaultEntry) : FaultEntry :=
  { movedEntry d true n dev e with trigger := some time, episode := e.episode + 1, captureLost := false }

def openedEpisode (e : FaultEntry) : EpisodeId := { number := e.episode + 1, time := time }

theorem applyFail_closed (h : e.phase.episodeOpen = false) :
    applyFail f d n dev time e =
      if updatedAcc d true n dev e.acc = d.confirmAt then
        ({ openedEntry d n dev time e with phase := .confirmed, confirmedRide := true, capture := none },
          triggerEvents f d (openedEpisode time e) ++ confirmEvents f d (openedEpisode time e) time ++
            demandEvents f d e.phase .confirmed)
      else
        ({ openedEntry d n dev time e with phase := .suspect },
          triggerEvents f d (openedEpisode time e) ++ demandEvents f d e.phase .suspect) := by
  obtain ⟨defn, ph, acc, tested, confirmedRide, trigger, episode, capture, captureLost, slot, unstored⟩ := e
  rcases episodeClosed_iff.1 h with rfl | rfl | rfl <;> rfl

theorem applyFail_suspect (h : e.phase = .suspect) :
    applyFail f d n dev time e =
      if updatedAcc d true n dev e.acc = d.confirmAt then
        ({ movedEntry d true n dev e with phase := .confirmed, confirmedRide := true, capture := none },
          confirmEvents f d e.openEpisode time ++ demandEvents f d e.phase .confirmed)
      else (movedEntry d true n dev e, []) := by
  obtain ⟨defn, ph, acc, tested, confirmedRide, trigger, episode, capture, captureLost, slot, unstored⟩ := e
  cases h
  rfl

/-- A FAIL of a confirmed episode, which makes no confirm (R63). -/
theorem applyFail_confirmed (h : e.phase = .confirmed ∨ e.phase = .recovering) :
    applyFail f d n dev time e =
      if updatedAcc d true n dev e.acc = d.confirmAt then
        ({ movedEntry d true n dev e with phase := .confirmed }, demandEvents f d e.phase .confirmed)
      else ({ movedEntry d true n dev e with phase := .recovering }, demandEvents f d e.phase .recovering) := by
  obtain ⟨defn, ph, acc, tested, confirmedRide, trigger, episode, capture, captureLost, slot, unstored⟩ := e
  unfold applyFail
  rcases h with rfl | rfl <;> by_cases hc : updatedAcc d true n dev acc = d.confirmAt <;>
    simp [hc, movedEntry, demandEvents_self]

theorem applyPass_closed (h : e.phase.episodeOpen = false) :
    applyPass f d n dev e =
      if updatedAcc d false n dev e.acc = d.healAt then
        ({ movedEntry d false n dev e with phase := .passed }, demandEvents f d e.phase .passed)
      else ({ movedEntry d false n dev e with phase := .passing }, demandEvents f d e.phase .passing) := by
  obtain ⟨defn, ph, acc, tested, confirmedRide, trigger, episode, capture, captureLost, slot, unstored⟩ := e
  unfold applyPass
  rcases episodeClosed_iff.1 h with rfl | rfl | rfl <;> by_cases hc : updatedAcc d false n dev acc = d.healAt <;>
    simp [hc, movedEntry]

/-- The entry with its episode closed (R68). -/
def closedEntry (e : FaultEntry) : FaultEntry :=
  { movedEntry d false n dev e with phase := .passed, trigger := none, capture := none }

theorem applyPass_suspect (h : e.phase = .suspect) :
    applyPass f d n dev e =
      if updatedAcc d false n dev e.acc = d.healAt then
        (closedEntry d n dev e,
          (if d.ring.isSome then [.episodeClose f e.openEpisode] else []) ++ demandEvents f d e.phase .passed)
      else (movedEntry d false n dev e, []) := by
  obtain ⟨defn, ph, acc, tested, confirmedRide, trigger, episode, capture, captureLost, slot, unstored⟩ := e
  cases h
  rfl

theorem applyPass_confirmed (h : e.phase = .confirmed ∨ e.phase = .recovering) :
    applyPass f d n dev e =
      if updatedAcc d false n dev e.acc = d.healAt then
        (closedEntry d n dev e, .heal f :: demandEvents f d e.phase .passed)
      else ({ movedEntry d false n dev e with phase := .recovering }, demandEvents f d e.phase .recovering) := by
  obtain ⟨defn, ph, acc, tested, confirmedRide, trigger, episode, capture, captureLost, slot, unstored⟩ := e
  unfold applyPass
  rcases h with rfl | rfl <;> by_cases hc : updatedAcc d false n dev acc = d.healAt <;>
    simp [hc, movedEntry, closedEntry, demandEvents_self]

end Report

/-! ### An entry in order stays so -/

section Kept
variable {f : FaultNo} {d : Definition} {n : Nat} {dev : Word} {time : Time} {e : FaultEntry}

theorem applyFail_wf (hd : e.defn = some d) (h : e.Wf) (hn : 1 ≤ n) : (applyFail f d n dev time e).1.Wf := by
  obtain ⟨hdwf, hadmits⟩ := h.defined d hd
  have hacc := updatedAcc_fail hdwf hn dev (admits_range hdwf hadmits).1
  rcases phase_cases e.phase with hp | hp | hp
  · rw [applyFail_closed f d n dev time hp]
    split_ifs with hc
    · exact wf_of_defined (d := d) hd hdwf hc rfl fun _ => rfl
    · exact wf_of_defined (d := d) hd hdwf (by simp only [openedEntry, movedEntry, Phase.admits]; omega) rfl
        fun hs => absurd rfl hs
  · obtain ⟨T, hT⟩ := trigger_of_open h (episodeOpen_iff.2 (.inl hp))
    rw [applyFail_suspect f d n dev time hp]
    split_ifs with hc
    · exact wf_of_defined (d := d) hd hdwf hc (by simp [movedEntry, hT, Phase.episodeOpen]) fun _ => rfl
    · exact wf_of_defined (d := d) hd hdwf (by simp only [movedEntry, hp, Phase.admits]; omega) h.trigger
        fun hs => absurd hp hs
  · obtain ⟨T, hT⟩ := trigger_of_open h (episodeOpen_iff.2 (.inr hp))
    have hcapture : e.capture = none := h.capture fun hs => by simp [hs] at hp
    rw [applyFail_confirmed f d n dev time hp]
    split_ifs with hc
    · exact wf_of_defined (d := d) hd hdwf hc (by simp [movedEntry, hT, Phase.episodeOpen]) fun _ => hcapture
    · exact wf_of_defined (d := d) hd hdwf (by simp only [movedEntry, Phase.admits]; omega)
        (by simp [movedEntry, hT, Phase.episodeOpen]) fun _ => hcapture

/-- A FAIL can reach C alone of the two thresholds (R63). -/
theorem atThreshold_fail (hdwf : d.Wf) (hn : 1 ≤ n) {a : Int} (ha : d.healAt ≤ a) :
    d.atThreshold (updatedAcc d true n dev a) = decide (updatedAcc d true n dev a = d.confirmAt) := by
  have hne := (updatedAcc_fail hdwf hn dev ha).1.ne'
  simp [Definition.atThreshold, hne]

/-- A PASS can reach H alone. -/
theorem atThreshold_pass (hdwf : d.Wf) (hn : 1 ≤ n) {a : Int} (ha : a ≤ d.confirmAt) :
    d.atThreshold (updatedAcc d false n dev a) = decide (updatedAcc d false n dev a = d.healAt) := by
  have hne := (updatedAcc_pass hdwf hn dev ha).2.ne
  simp [Definition.atThreshold, hne]

/-- The fields that every FAIL moves in one way, or leaves alone. -/
theorem applyFail_fields (f : FaultNo) (d : Definition) (n : Nat) (dev : Word) (time : Time) (e : FaultEntry) :
    let e' := (applyFail f d n dev time e).1
    e'.defn = e.defn ∧ e'.acc = updatedAcc d true n dev e.acc ∧
      e'.tested = (e.tested || d.atThreshold (updatedAcc d true n dev e.acc)) ∧ e'.slot = e.slot ∧
      e'.unstored = e.unstored := by
  unfold applyFail
  dsimp only
  split <;> split <;> exact ⟨rfl, rfl, rfl, rfl, rfl⟩

/-- The fields that every PASS moves in one way, or leaves alone. -/
theorem applyPass_fields (f : FaultNo) (d : Definition) (n : Nat) (dev : Word) (e : FaultEntry) :
    let e' := (applyPass f d n dev e).1
    e'.defn = e.defn ∧ e'.acc = updatedAcc d false n dev e.acc ∧
      e'.tested = (e.tested || d.atThreshold (updatedAcc d false n dev e.acc)) ∧
      e'.confirmedRide = e.confirmedRide ∧ e'.slot = e.slot ∧ e'.unstored = e.unstored ∧ e'.episode = e.episode ∧
      e'.captureLost = e.captureLost := by
  unfold applyPass
  dsimp only
  split <;> (try split) <;> exact ⟨rfl, rfl, rfl, rfl, rfl, rfl, rfl, rfl⟩

end Kept

/-- Settles O29: an equation for each kind of state, with C reached and without. -/
theorem failMovesTheFault : Obligations.FailMovesTheFault := by
  intro f d n dev time e hd hwf hn _ a r e' opened confirmsOf notice
  obtain ⟨hdwf, hadmits⟩ := hwf.defined d hd
  obtain ⟨hdefn, hacc, htested, hslot, hunstored⟩ := applyFail_fields f d n dev time e
  rw [atThreshold_fail hdwf hn (admits_range hdwf hadmits).1] at htested
  have hcaptured : e.phase ≠ .suspect → e.capture = none := hwf.capture
  refine ⟨hdefn.trans hd, hacc, htested, hslot, hunstored, ?_⟩
  by_cases hc : a = d.confirmAt
  · have hride : true = (e.confirmedRide || decide (a = d.confirmAt)) := by simp [hc]
    simp only [if_pos hc]
    refine ⟨fun hclosed => ?_, fun hsuspect => ?_, fun hconfirmed => ?_⟩
    · have hr : r = _ := (applyFail_closed f d n dev time hclosed).trans (if_pos hc)
      clear_value r
      subst hr
      exact ⟨rfl, rfl, rfl, rfl, rfl, hride, by rw [confirmEvents_eq, demandEvents_eq]; rfl⟩
    · have hr : r = _ := (applyFail_suspect f d n dev time hsuspect).trans (if_pos hc)
      clear_value r
      subst hr
      refine ⟨rfl, rfl, rfl, rfl, rfl, hride, fun T hT => ?_⟩
      rw [confirmEvents_eq, demandEvents_eq, openEpisode_eq hT]
    · have hr : r = _ := (applyFail_confirmed f d n dev time hconfirmed).trans (if_pos hc)
      clear_value r
      subst hr
      exact ⟨rfl, rfl, rfl, rfl, hcaptured fun hs => by simp [hs] at hconfirmed, rfl, demandEvents_eq ..⟩
  · have hride : e.confirmedRide = (e.confirmedRide || decide (a = d.confirmAt)) := by simp [hc]
    simp only [if_neg hc]
    refine ⟨fun hclosed => ?_, fun hsuspect => ?_, fun hconfirmed => ?_⟩
    · have hr : r = _ := (applyFail_closed f d n dev time hclosed).trans (if_neg hc)
      have hcapture := capture_of_closed hwf hclosed
      clear_value r
      subst hr
      exact ⟨rfl, rfl, rfl, rfl, hcapture, hride, by rw [demandEvents_eq, List.append_nil]; rfl⟩
    · have hr : r = _ := (applyFail_suspect f d n dev time hsuspect).trans (if_neg hc)
      clear_value r
      subst hr
      exact ⟨hsuspect, rfl, rfl, rfl, rfl, hride, fun _ _ => (if_neg fun hne => hne.1 rfl).symm⟩
    · have hr : r = _ := (applyFail_confirmed f d n dev time hconfirmed).trans (if_neg hc)
      clear_value r
      subst hr
      exact ⟨rfl, rfl, rfl, rfl, hcaptured fun hs => by simp [hs] at hconfirmed, rfl, demandEvents_eq ..⟩

/-- What a PASS that reaches H raises before its demand notice (R61, R62, R68). -/
def closingEvents (f : FaultNo) (d : Definition) (e : FaultEntry) : List Instr :=
  if e.phase = .suspect then if d.ring = none then [] else [.episodeClose f e.openEpisode]
  else if e.phase.episodeOpen then [.heal f] else []

theorem applyPass_atHeal (f : FaultNo) {d : Definition} {n : Nat} {dev : Word} {e : FaultEntry} (h : e.Wf)
    (hc : updatedAcc d false n dev e.acc = d.healAt) :
    let r := applyPass f d n dev e
    r.1.phase = .passed ∧ r.1.trigger = none ∧ r.1.capture = none ∧
      r.2 = closingEvents f d e ++ demandEvents f d e.phase .passed := by
  unfold closingEvents
  rcases phase_cases e.phase with hp | hp | hp
  · have htrigger := trigger_of_closed h hp
    have hcapture := capture_of_closed h hp
    rw [applyPass_closed f d n dev hp, if_pos hc, if_neg fun hs => by simp [hs, Phase.episodeOpen] at hp, hp]
    exact ⟨rfl, htrigger, hcapture, rfl⟩
  · rw [applyPass_suspect f d n dev hp, if_pos hc, if_pos hp]
    refine ⟨rfl, rfl, rfl, ?_⟩
    cases d.ring <;> rfl
  · rw [applyPass_confirmed f d n dev hp, if_pos hc, if_neg fun hs => by simp [hs] at hp,
      if_pos (episodeOpen_iff.2 (.inr hp))]
    exact ⟨rfl, rfl, rfl, rfl⟩

/-- The state after a PASS that ends above H (R60 to R62). -/
def keptPhase : Phase → Phase
  | .suspect => .suspect
  | .confirmed => .recovering
  | .recovering => .recovering
  | _ => .passing

theorem applyPass_aboveHeal (f : FaultNo) {d : Definition} {n : Nat} {dev : Word} {e : FaultEntry}
    (hc : updatedAcc d false n dev e.acc ≠ d.healAt) :
    let r := applyPass f d n dev e
    r.1.phase = keptPhase e.phase ∧ r.1.trigger = e.trigger ∧ r.1.capture = e.capture ∧
      r.2 = demandEvents f d e.phase r.1.phase := by
  rcases phase_cases e.phase with hp | hp | hp
  · have hkept : keptPhase e.phase = .passing := by rcases episodeClosed_iff.1 hp with h | h | h <;> rw [h] <;> rfl
    rw [applyPass_closed f d n dev hp, if_neg hc, hkept]
    exact ⟨rfl, rfl, rfl, rfl⟩
  · rw [applyPass_suspect f d n dev hp, if_neg hc]
    exact ⟨by rw [hp]; exact hp, rfl, rfl, (demandEvents_self ..).symm⟩
  · have hkept : keptPhase e.phase = .recovering := by rcases hp with h | h <;> rw [h] <;> rfl
    rw [applyPass_confirmed f d n dev hp, if_neg hc, hkept]
    exact ⟨rfl, rfl, rfl, rfl⟩

theorem keptPhase_episodeOpen (ph : Phase) : (keptPhase ph).episodeOpen = ph.episodeOpen := by
  cases ph <;> rfl

/-- Where a PASS above H leaves the accumulator, its state admits it. -/
theorem keptPhase_admits {d : Definition} (hdwf : d.Wf) {ph : Phase} {a a' : Int} (ha : ph.admits d a)
    (hrange : d.healAt < a' ∧ a' < d.confirmAt) (hneg : a ≤ 0 → a' < 0) : (keptPhase ph).admits d a' := by
  have hclosed := admits_closed hdwf ha
  cases ph with
  | suspect | confirmed | recovering => exact hrange
  | untested | passing | passed => exact ⟨hrange.1, hneg (hclosed rfl)⟩

theorem applyPass_wf {f : FaultNo} {d : Definition} {n : Nat} {dev : Word} {e : FaultEntry} (hd : e.defn = some d)
    (h : e.Wf) (hn : 1 ≤ n) : (applyPass f d n dev e).1.Wf := by
  obtain ⟨hdwf, hadmits⟩ := h.defined d hd
  obtain ⟨hdefn, hacc, -⟩ := applyPass_fields f d n dev e
  have hrange := updatedAcc_pass hdwf hn dev (admits_range hdwf hadmits).2
  by_cases hc : updatedAcc d false n dev e.acc = d.healAt
  · obtain ⟨hphase, htrigger, hcapture, -⟩ := applyPass_atHeal f h hc
    refine wf_of_defined (hdefn.trans hd) hdwf ?_ ?_ fun _ => hcapture
    · rw [hphase, hacc]
      exact hc
    · rw [hphase, htrigger]
      rfl
  · obtain ⟨hphase, htrigger, hcapture, -⟩ := applyPass_aboveHeal f hc
    refine wf_of_defined (hdefn.trans hd) hdwf ?_ ?_ fun hs => ?_
    · rw [hphase, hacc]
      exact keptPhase_admits hdwf hadmits ⟨lt_of_le_of_ne hrange.1 (Ne.symm hc), hrange.2⟩
        (updatedAcc_pass_neg hdwf hn dev)
    · rw [hphase, htrigger, keptPhase_episodeOpen]
      exact h.trigger
    · rw [hcapture]
      exact h.capture fun hp => hs (by rw [hphase, hp]; rfl)

theorem applyReport_wf {f : FaultNo} {d : Definition} {n : Nat} {dev : Word} {time : Time} {e : FaultEntry}
    (hd : e.defn = some d) (h : e.Wf) (o : ReportOutcome) (hn : 1 ≤ n) :
    (applyReport f d o n dev time e).1.Wf := by
  cases o with
  | fail => exact applyFail_wf hd h hn
  | pass => exact applyPass_wf hd h hn
  | untestable => exact h

/-- Settles O30: what a PASS leaves and raises at H, and above it. -/
theorem passMovesTheFault : Obligations.PassMovesTheFault := by
  intro f d n dev time e hd hwf hn _ a r e' notice
  obtain ⟨hdwf, hadmits⟩ := hwf.defined d hd
  obtain ⟨hdefn, hacc, htested, hride, hslot, hunstored, hepisode, hlost⟩ := applyPass_fields f d n dev e
  rw [atThreshold_pass hdwf hn (admits_range hdwf hadmits).2] at htested
  by_cases hc : a = d.healAt
  · obtain ⟨hphase, htrigger, hcapture, hraised⟩ := applyPass_atHeal f hwf hc
    have hnotice : demandEvents f d e.phase .passed = notice := by
      rw [← hphase, demandEvents_eq]
      rfl
    rw [hnotice] at hraised
    simp only [if_pos hc]
    refine ⟨⟨hdefn.trans hd, hacc, htested, hride, hslot, hunstored, hepisode, hlost, hcapture⟩,
      fun _ => ⟨hphase, htrigger⟩, fun hn => absurd hc hn, fun T hT hp _ => ?_, fun hp _ => ?_, fun hp => ?_, rfl⟩
    · rw [← openEpisode_eq hT]
      exact hraised.trans (by rw [closingEvents, if_pos hp])
    · refine hraised.trans ?_
      rw [closingEvents, if_neg fun hs => by simp [hs] at hp, if_pos (episodeOpen_iff.2 (.inr hp))]
      rfl
    · have hclosed := hp.resolve_right (not_not.2 hc)
      refine hraised.trans ?_
      rw [closingEvents, if_neg fun hs => by simp [hs, Phase.episodeOpen] at hclosed, hclosed]
      rfl
  · obtain ⟨hphase, htrigger, hcapture, hraised⟩ := applyPass_aboveHeal f hc
    rw [demandEvents_eq] at hraised
    simp only [if_neg hc]
    exact ⟨⟨hdefn.trans hd, hacc, htested, hride, hslot, hunstored, hepisode, hlost, hcapture⟩,
      fun h => absurd h hc, fun _ => ⟨hphase, htrigger⟩, fun _ _ _ h => absurd h hc, fun _ h => absurd h hc,
      fun _ => hraised, rfl⟩

end Sys2Proof.Qualifier
end

section
/-! SUPPORT. What the fault table's invariant speaks of, and every operation of the blocks that leaves it alone. -/

namespace Sys2Proof.Qualifier
open Sys2Proof.Machine

/-! ### The fault table, and what the build of TAKE DEFINITIONS has in hand -/

/-- The entries of the faults, and the TAKE DEFINITIONS that runs: all that the invariant of the fault table reads. -/
def table (s : State) : Vector FaultEntry 128 × Option TakeRun := (s.faults, s.handler.take)

theorem faultsWf_of_table {s t : State} (h : s.FaultsWf) (he : table t = table s) : t.FaultsWf := by
  obtain ⟨hfaults, htake⟩ := Prod.mk.inj he
  refine ⟨fun f => ?_, fun r hr => ?_⟩
  · rw [hfaults]
    exact h.entries f
  · exact h.found r (htake ▸ hr)

/-! ### One field at a time -/

section Fields
variable (s : State)

@[simp] theorem table_setPort (p : Port) (x : PortIf) : table (s.setPort p x) = table s := rfl
@[simp] theorem table_setQueue (p : Port) (x : Queue) : table (s.setQueue p x) = table s := rfl
@[simp] theorem table_setRing (p : Port) (x : Tracker) : table (s.setRing p x) = table s := rfl
@[simp] theorem table_setBuffer (b : BufNo) (x : Option Capture) : table (s.setBuffer b x) = table s := rfl
@[simp] theorem table_setSlots (x : Vector (Option Record) 16) : table (s.setSlots x) = table s := rfl
@[simp] theorem table_setIndex (x : List SlotNo) : table (s.setIndex x) = table s := rfl
@[simp] theorem table_setSup (x : Supervisor) : table (s.setSup x) = table s := rfl
@[simp] theorem table_setLamps (x : LampDriver) : table (s.setLamps x) = table s := rfl
@[simp] theorem table_setEnables (p : Port) (x : Word) : table (s.setEnables p x) = table s := rfl
@[simp] theorem table_setStore (x : Store) : table (s.setStore x) = table s := rfl
@[simp] theorem table_put (a : Nat) (v : Word) : table (s.put a v) = table s := rfl
@[simp] theorem table_raise (c : Instr) : table (s.raise c) = table s := rfl
@[simp] theorem table_raiseAll (cs : List Instr) : table (s.raiseAll cs) = table s := rfl
@[simp] theorem table_latch (p : Port) (c : Cause) : table (s.latch p c) = table s := rfl
@[simp] theorem table_begin (c : Instr) : table (s.begin c) = table s := rfl

@[simp] theorem table_setHandler (x : Handler) : table (s.setHandler x) = (s.faults, x.take) := rfl
@[simp] theorem table_mk : (s.faults, s.handler.take) = table s := rfl

@[simp] theorem table_putAll (ws : List (Nat × Word)) : table (s.putAll ws) = table s := by
  rw [State.putAll_eq]
  rfl

@[simp] theorem table_rewrite (c : Nat) (ws : List (Nat × Word)) : table (s.rewrite c ws) = table s := by
  rw [State.rewrite_eq, table_putAll]

@[simp] theorem table_publishRecord (i : SlotNo) : table (s.publishRecord i) = table s := table_rewrite ..
@[simp] theorem table_publishIndex : table s.publishIndex = table s := table_rewrite ..
@[simp] theorem table_publishHeader (b : BufNo) : table (s.publishHeader b) = table s := table_rewrite ..

@[simp] theorem table_ite (c : Prop) [Decidable c] (s t : State) :
    table (if c then s else t) = if c then table s else table t := apply_ite ..

end Fields

/-! ### The mode and the requests -/

section Shared
variable (s : State)

@[simp] theorem table_changeMode (m : Mode) : table (s.changeMode m) = table s := by
  rw [State.changeMode_eq]
  rfl

@[simp] theorem table_complete (p : Port) (st r0 r1 r2 : Word) : table (s.complete p st r0 r1 r2) = table s := by
  simp [State.complete]

@[simp] theorem table_refuse (p : Port) (st : Word) : table (s.refuse p st) = table s := table_complete ..

@[simp] theorem table_partEnds (left : StartRun → StartRun) : table (s.partEnds left) = table s := by
  rw [State.partEnds_eq]
  rfl

@[simp] theorem table_takeRequest (p : Port) : table (s.takeRequest p) = table s := by
  unfold State.takeRequest
  dsimp only
  split
  · split_ifs <;> rfl
  · simp

@[simp] theorem table_takeIfPosted (p : Port) : table (s.takeIfPosted p) = table s := by
  simp [State.takeIfPosted]

end Shared

/-! ### The ports -/

section Ports
variable (s : State)

@[simp] theorem table_drive (p : Port) (bs : List Byte) : table (s.drive p bs) = table s := rfl
@[simp] theorem table_setLink (p : Port) (l : Link) : table (s.setLink p l) = table s := rfl
@[simp] theorem table_setBadCommand (p : Port) (b : Bool) : table (s.setBadCommand p b) = table s := rfl

@[simp] theorem table_portStore (p : Port) (a : Nat) (v : Word) : table (s.portStore p a v) = table s := by
  unfold State.portStore
  dsimp only
  split <;> simp

@[simp] theorem table_writeBurst (p : Port) (a : Nat) (ws : List Word) : table (s.writeBurst p a ws) = table s := by
  induction ws generalizing s a with
  | nil => rfl
  | cons w ws ih => simp [State.writeBurst, ih, State.writeWord]

@[simp] theorem table_swapAccess (p : Port) (a : Nat) (compare new : Word) :
    table (s.swapAccess p a compare new).1 = table s := by
  unfold State.swapAccess
  dsimp only
  split_ifs <;> simp

/-- A transaction leaves the table alone where its command does. -/
theorem table_transact {s : State} {p : Port} {command : State → State} (h : ∀ u, table (command u) = table u) :
    table (s.transact p command) = table s := by
  simp [State.transact, h]

theorem table_command {s : State} {p : Port} {body : State → State} (h : ∀ u, table (body u) = table u) :
    table (s.command p body) = table s :=
  table_transact fun _ => h _

end Ports

/-! ### The queues -/

section Queues
variable (s : State)

@[simp] theorem table_setLevels (p : Port) : table (s.setLevels p) = table s := rfl
@[simp] theorem table_evaluateLevels (p : Port) : table (s.evaluateLevels p) = table s := rfl

@[simp] theorem table_reportDrained (p : Port) : table (s.reportDrained p) = table s := by
  simp [State.reportDrained]

@[simp] theorem table_drainBy (p : Port) (n : Nat) : table (s.drainBy p n) = table s := by
  simp [State.drainBy]

@[simp] theorem table_repairOverrun (p : Port) : table (s.repairOverrun p) = table s := by
  simp [State.repairOverrun]

@[simp] theorem table_topTaken (p : Port) (t : Word) : table (s.topTaken p t) = table s := by
  simp [State.topTaken]

@[simp] theorem table_advanceBottom (p : Port) : table (s.advanceBottom p) = table s := by
  simp [State.advanceBottom]

@[simp] theorem table_resetQueue (p : Port) : table (s.resetQueue p) = table s := by
  simp [State.resetQueue]

@[simp] theorem table_changeQueueCapacity (p : Port) (n : Nat) : table (s.changeQueueCapacity p n) = table s := by
  simp [State.changeQueueCapacity]

@[simp] theorem table_startDrain (p : Port) : table (s.startDrain p) = table s := by
  simp [State.startDrain]

end Queues

/-! ### The Attention Unit -/

section Attention
variable (s : State)

@[simp] theorem table_refreshTop (p : Port) : table (s.refreshTop p) = table s := by
  simp [State.refreshTop]

@[simp] theorem table_setLatched (p : Port) (v : Word) : table (s.setLatched p v) = table s := by
  simp [State.setLatched]

@[simp] theorem table_latchNow (p : Port) (c : Cause) : table (s.latchNow p c) = table s := by
  simp [State.latchNow]

@[simp] theorem table_showMask (p : Port) (which : MaskWord) (v : Word) : table (s.showMask p which v) = table s := by
  simp [State.showMask]

@[simp] theorem table_rejectRecord (p : Port) (reason fault : Nat) :
    table (s.rejectRecord p reason fault) = table s := by
  simp [State.rejectRecord]

end Attention

/-! ### The rings and the frame pool -/

section Pool
variable (s : State)

@[simp] theorem table_setRingState (p : Port) (st : RingState) (timer : Option Nat) :
    table (s.setRingState p st timer) = table s := by
  simp [State.setRingState]

@[simp] theorem table_advanceRing (p : Port) : table (s.advanceRing p) = table s := by
  simp [State.advanceRing]

@[simp] theorem table_resetRing (p : Port) : table (s.resetRing p) = table s := by
  simp [State.resetRing]

@[simp] theorem table_changeRingCapacity (p : Port) (n : Nat) : table (s.changeRingCapacity p n) = table s := rfl

@[simp] theorem table_changeBuffer (b : BufNo) (c : Capture) : table (s.changeBuffer b c) = table s := by
  simp [State.changeBuffer]

@[simp] theorem table_freeBuffer (b : BufNo) : table (s.freeBuffer b) = table s := by
  simp [State.freeBuffer]

@[simp] theorem table_copySamples (b : BufNo) (k : Nat) (xs : List Sample) :
    table (s.copySamples b k xs) = table s := by
  rw [State.copySamples_frame]
  rfl

/-- A pass over the buffers leaves the table alone where each change does. -/
theorem table_forBuffers {s : State} {which : Capture → Bool} {change : State → BufNo → Capture → State}
    (h : ∀ u b c, table (change u b c) = table u) : table (s.forBuffers which change) = table s :=
  State.forBuffers_keeps (P := fun u => table u = table s) (fun u b c hu _ _ => (h u b c).trans hu) rfl

@[simp] theorem table_openCapture (b : BufNo) (f : FaultNo) (ep : EpisodeId) (ring : Port)
    (pre post priority : BitVec 4) : table (s.openCapture b f ep ring pre post priority) = table s := by
  simp [State.openCapture]

@[simp] theorem table_offerSample (x : Sample) (b : BufNo) (c : Capture) : table (s.offerSample x b c) = table s := by
  simp [State.offerSample]

@[simp] theorem table_arrive (p : Port) (k : Word) : table (s.arrive p k) = table s := by
  rw [State.arrive, table_raise]
  exact table_forBuffers fun u b c => table_offerSample u _ b c

@[simp] theorem table_arriveAll (p : Port) (first : Word) (n : Nat) : table (s.arriveAll p first n) = table s :=
  foldl_keeps (P := fun u => table u = table s) (fun u _ hu => (table_arrive u p _).trans hu) _ rfl

@[simp] theorem table_markGap (p : Port) : table (s.markGap p) = table s :=
  table_forBuffers fun u b _ => table_changeBuffer u b _

@[simp] theorem table_releaseProvisional : table s.releaseProvisional = table s :=
  table_forBuffers fun u b _ => table_freeBuffer u b

end Pool

/-! ### Event memory, the lamps, the clock and the store -/

section Rest
variable (s : State)

@[simp] theorem table_handOn (account : Option FaultNo) (old : Vector (Option Record) 16) :
    table (s.handOn account old) = table s := by
  rw [State.handOn_frame]
  rfl

@[simp] theorem table_reconnect : table s.reconnect = table s := by
  simp [State.reconnect]

@[simp] theorem table_clearDamaged : table s.clearDamaged = table s := by
  simp [State.clearDamaged]

@[simp] theorem table_countClear (f : FaultNo) (n : Nat) : table (s.countClear f n) = table s := by
  unfold State.countClear
  split
  · rfl
  · dsimp only
    split_ifs <;> simp

@[simp] theorem table_setLamp (k : Lamp) (x : LampState) : table (s.setLamp k x) = table s := by
  simp [State.setLamp]

@[simp] theorem table_recompute (k : Lamp) : table (s.recompute k) = table s := by
  simp [State.recompute]

@[simp] theorem table_recomputeField (l : LampField) : table (s.recomputeField l) = table s := by
  simp [State.recomputeField]

@[simp] theorem table_rideStartLamp (k : Lamp) : table (s.rideStartLamp k) = table s := by
  simp [State.rideStartLamp]

@[simp] theorem table_tickRing (p : Port) : table (s.tickRing p) = table s := by
  unfold State.tickRing
  dsimp only
  split <;> simp

@[simp] theorem table_recomputeMoving : table s.recomputeMoving = table s := by
  simp [State.recomputeMoving]

@[simp] theorem table_engineSample (t : Time) (v : Word) : table (s.engineSample t v) = table s := by
  simp [State.engineSample]

@[simp] theorem table_speedSample (v : Word) : table (s.speedSample v) = table s := by
  simp [State.speedSample]

@[simp] theorem table_takeMasks (p : Port) : table (s.takeMasks p) = table s := by
  simp [State.takeMasks]

@[simp] theorem table_publishDirty : table s.publishDirty = table s := rfl
@[simp] theorem table_publishWriter : table s.publishWriter = table s := rfl

@[simp] theorem table_hold : table s.hold = table s := by
  unfold State.hold State.cutWrite
  split <;> rfl

@[simp] theorem table_settleIntake : table s.settleIntake = table s := rfl

end Rest

end Sys2Proof.Qualifier
end

section
/-! SUPPORT. The commands that leave the fault table alone: all but the take of a record, the
qualifier's own events, the build
of TAKE DEFINITIONS, RETURN TO CONFIG, START RIDE and a part reset. -/

namespace Sys2Proof.Qualifier
open Sys2Proof.Machine

/-- The commands that may change a fault's entry, or what a running TAKE DEFINITIONS has found. -/
def changesTable : Instr → Bool
  | .recordTake _ => true
  | .captureOpened _ _ _ => true
  | .captureLost _ _ => true
  | .captureReleased _ _ _ => true
  | .slotNotice _ _ _ => true
  | .qualifierClear _ => true
  | .takeDefinitions => true
  | .takeDefinitionsBuildDone => true
  | .returnToConfig => true
  | .startRide => true
  | .partReset => true
  | _ => false

section Commands
variable {c : Instr} {s t : State}

theorem take_table {f : State → State} (h : s.take c f = .next t) (hf : ∀ u, table (f u) = table u) :
    table t = table s := by
  rcases State.take_next h with rfl | ⟨-, rfl⟩
  exacts [rfl, hf _]

theorem takeUp_table {f : State → State} (h : s.takeUp c f = .next t) (hf : ∀ u, table (f u) = table u) :
    table t = table s := by
  rcases State.takeUp_next h with rfl | ⟨-, -, rfl⟩
  exacts [rfl, hf _]

theorem next_table {u : State} (h : Host.Outcome.next (φ := Fault) (ρ := Refusal) u = .next t)
    (hu : table u = table s) : table t = table s := by
  cases h
  exact hu

theorem read_table {p : Port} {x : Burst} {n : Clocked Nat} (h : exec (.read p x n) s = .next t) :
    table t = table s := by
  refine next_table h ?_
  cases x with
  | opens w => exact table_command fun u => by simp
  | cut n => exact table_command fun u => by simp
  | continues =>
    dsimp only
    split <;> simp

theorem write_table {p : Port} {x : Burst} {ws : Clocked (List Word)} (h : exec (.write p x ws) s = .next t) :
    table t = table s := by
  refine next_table h ?_
  cases x with
  | opens w => exact table_command fun u => by simp
  | cut n => exact table_command fun u => by simp
  | continues =>
    dsimp only
    split <;> simp

theorem swap_table {p : Port} {x : SwapForm} (h : exec (.swap p x) s = .next t) : table t = table s := by
  refine next_table h ?_
  cases x with
  | whole w c n extra => exact table_command fun u => by simp
  | cut n => exact table_command fun u => by simp

theorem status_table {p : Port} {opens : Bool} {n : Nat} (h : exec (.status p opens n) s = .next t) :
    table t = table s := by
  refine next_table h ?_
  cases opens with
  | true =>
    rw [if_pos rfl]
    exact table_command fun u => by simp
  | false =>
    rw [if_neg Bool.false_ne_true]
    split <;> simp

theorem restart_table {p : Port} {k : Nat} (h : exec (.restart p k) s = .next t) : table t = table s := by
  refine next_table h ?_
  dsimp only
  split_ifs
  · rfl
  · rfl
  · exact table_command fun u => by simp

theorem badCommand_table {p : Port} {b : Byte} {k : Nat} (h : exec (.badCommand p b k) s = .next t) :
    table t = table s :=
  next_table h (table_transact fun u => by simp)

/-- Of the commands from outside the part, a take of a record and a part reset alone reach the table. -/
theorem outside_table (hb : c.block = .outside) (hc : changesTable c = false) (h : exec c s = .next t) :
    table t = table s := by
  cases c with
  | read p x n => exact read_table h
  | write p x ws => exact write_table h
  | swap p x => exact swap_table h
  | status p opens n => exact status_table h
  | restart p k => exact restart_table h
  | badCommand p b k => exact badCommand_table h
  | chipSelectRise p => exact next_table h rfl
  | rideClockTick =>
    unfold exec execRideClockTick at h
    exact take_table h fun u => by simp
  | overcurrentDetection k =>
    unfold exec execOvercurrentDetection at h
    exact take_table h fun u => by simp
  | writeStart =>
    unfold exec execWriteStart at h
    refine takeUp_table h fun u => ?_
    dsimp only
    split
    · rfl
    · split <;> simp
  | writeCompletion =>
    unfold exec execWriteCompletion at h
    refine takeUp_table h fun u => ?_
    dsimp only
    split <;> simp
  | supplyLowChange level =>
    refine next_table h ?_
    dsimp only
    split_ifs <;> rfl
  | resetHold =>
    refine next_table h ?_
    split
    · rfl
    · exact table_hold _
  | recordTake | partReset => cases hc
  | _ => cases hb

theorem intake_table (hb : c.block = .intake) (h : exec c s = .next t) : table t = table s := by
  cases c with
  | topTaken p top =>
    unfold exec execTopTaken at h
    exact takeUp_table h fun u => table_topTaken ..
  | levelReEvaluation p level =>
    unfold exec execLevelReEvaluation at h
    exact takeUp_table h fun u => table_evaluateLevels ..
  | intakeRestart p =>
    unfold exec execIntakeRestart at h
    exact takeUp_table h fun u => by simp
  | _ => cases hb

theorem trigger_table {f : FaultNo} {ep : EpisodeId} {ring : Port} {pre post priority : BitVec 4}
    (h : exec (.trigger f ep ring pre post priority) s = .next t) : table t = table s := by
  unfold exec execTrigger at h
  refine takeUp_table h fun u => ?_
  have hstale : table (u.forBuffers (fun c => decide (c.holder = .provisional) && decide (c.fault = f))
      fun s b c => (s.freeBuffer b).raise (.captureReleased f b c.episode)) = table u :=
    table_forBuffers fun _ _ _ => table_freeBuffer ..
  dsimp only
  generalize u.forBuffers _ _ = v at hstale
  split
  · rw [table_openCapture, hstale]
  · split
    · split
      · rw [table_openCapture, table_raise, hstale]
      · exact hstale
    · exact hstale

theorem capture_table (hb : c.block = .capture) (h : exec c s = .next t) : table t = table s := by
  cases c with
  | headWritten p h' =>
    unfold exec execHeadWritten at h
    exact takeUp_table h fun u => by simp
  | stallTimerExpiry p =>
    unfold exec execStallTimerExpiry at h
    exact takeUp_table h fun u => by simp
  | fcuModeNotice edge =>
    unfold exec execFcuModeNotice at h
    exact takeUp_table h fun u => by cases edge <;> simp
  | ringRestart p =>
    unfold exec execRingRestart at h
    refine takeUp_table h fun u => (table_forBuffers fun _ _ _ => table_changeBuffer ..).trans ?_
    simp
  | trigger f ep ring pre post priority => exact trigger_table h
  | deadlineExpiry b =>
    unfold exec execDeadlineExpiry at h
    refine takeUp_table h fun u => ?_
    split <;> simp
  | confirmNotice f ep =>
    unfold exec execConfirmNotice at h
    refine takeUp_table h fun u => ?_
    split
    · split <;> simp
    · rfl
  | episodeClose f ep =>
    unfold exec execEpisodeClose at h
    refine takeUp_table h fun u => ?_
    split <;> simp
  | entryResetDiscard f b =>
    unfold exec execEntryResetDiscard at h
    refine takeUp_table h fun u => ?_
    split <;> simp
  | attachDirection f ep i =>
    unfold exec execAttachDirection at h
    refine takeUp_table h fun u => ?_
    split
    · split <;> simp
    · rfl
  | discardDirection f ep =>
    unfold exec execDiscardDirection at h
    refine takeUp_table h fun u => ?_
    split <;> simp
  | bufferFree i b =>
    unfold exec execBufferFree at h
    refine takeUp_table h fun u => ?_
    split
    · split <;> simp
    · exact table_forBuffers fun _ _ _ => table_freeBuffer ..
  | captureUnitClear f =>
    unfold exec execCaptureUnitClear at h
    exact takeUp_table h fun u => table_forBuffers fun _ _ _ => table_freeBuffer ..
  | fcuRideEndEvent =>
    unfold exec execFcuRideEndEvent at h
    refine takeUp_table h fun u => ?_
    dsimp only
    rw [table_raise]
    exact (table_forBuffers fun _ _ _ => by simp).trans (table_forBuffers fun _ _ _ => by simp)
  | _ => cases hb

theorem manager_table (hb : c.block = .manager) (h : exec c s = .next t) : table t = table s := by
  cases c with
  | confirmEvent f ep time priority lamp pattern ringNone =>
    unfold exec execConfirmEvent at h
    refine takeUp_table h fun u => ?_
    dsimp only
    split
    · split <;> simp
    · split
      · simp
      · split
        · split <;> simp
        · simp
  | heal f =>
    unfold exec execHeal at h
    refine takeUp_table h fun u => ?_
    split
    · split <;> simp
    · rfl
  | frameChangeNotice i b f ep st preShort gap =>
    unfold exec execFrameChangeNotice at h
    refine takeUp_table h fun u => ?_
    dsimp only
    split <;> simp
  | noFrameNotice i f ep =>
    unfold exec execNoFrameNotice at h
    refine takeUp_table h fun u => ?_
    split <;> simp
  | clearEvent f =>
    unfold exec execClearEvent at h
    refine takeUp_table h fun u => ?_
    split
    · split <;> simp
    · simp
  | managerRideEndEvent qualifying =>
    unfold exec execManagerRideEndEvent at h
    exact takeUp_table h fun u => by simp
  | clearFaults argument =>
    unfold exec execClearFaults at h
    refine takeUp_table h fun u => ?_
    dsimp only
    split
    · simp
    · split <;> simp
  | _ => cases hb

theorem supervisor_table (hb : c.block = .supervisor) (hc : changesTable c = false) (h : exec c s = .next t) :
    table t = table s := by
  cases c with
  | queueDrained p =>
    unfold exec execQueueDrained at h
    exact takeUp_table h fun u => by simp
  | qualificationArrival ring time ch0 =>
    unfold exec execQualificationArrival at h
    exact takeUp_table h fun u => by cases ring <;> simp
  | ringStateReport ring state =>
    unfold exec execRingStateReport at h
    exact takeUp_table h fun u => by simp
  | endRide =>
    unfold exec execEndRide at h
    exact takeUp_table h fun u => by simp
  | poolSettled =>
    unfold exec execPoolSettled at h
    exact takeUp_table h fun u => by simp
  | closingComplete =>
    unfold exec execClosingComplete at h
    refine takeUp_table h fun u => ?_
    dsimp only
    split <;> simp
  | absReady =>
    unfold exec execAbsReady at h
    exact takeUp_table h fun u => by simp
  | bulbCheckExpiry =>
    unfold exec execBulbCheckExpiry at h
    refine take_table h fun u => ?_
    dsimp only
    split <;> simp
  | loadComplete =>
    unfold exec execLoadComplete at h
    exact take_table h fun u => by simp
  | takeDefinitions | returnToConfig | startRide | takeDefinitionsBuildDone => cases hc
  | _ => cases hb

theorem handler_table (hb : c.block = .handler) (h : exec c s = .next t) : table t = table s := by
  cases c with
  | requestPosted p =>
    unfold exec execRequestPosted at h
    exact takeUp_table h fun u => table_takeIfPosted ..
  | requestReleased p =>
    unfold exec execRequestReleased at h
    exact takeUp_table h fun u => rfl
  | waitingRequestTake p =>
    unfold exec execWaitingRequestTake at h
    exact takeUp_table h fun u => table_takeIfPosted ..
  | requestRestart p =>
    unfold exec execRequestRestart at h
    exact takeUp_table h fun u => by simp
  | _ => cases hb

theorem attention_table (hb : c.block = .attention) (h : exec c s = .next t) : table t = table s := by
  cases c with
  | latchRequest p cause =>
    unfold exec execLatchRequest at h
    exact take_table h fun u => table_latchNow ..
  | maskChange p which value =>
    unfold exec execMaskChange at h
    exact take_table h fun u => by cases which <;> simp
  | acknowledgement p value =>
    unfold exec execAcknowledgement at h
    exact take_table h fun u => table_setLatched ..
  | attentionRestart p =>
    unfold exec execAttentionRestart at h
    exact take_table h fun u => by simp
  | _ => cases hb

theorem lamps_table (hb : c.block = .lamps) (h : exec c s = .next t) : table t = table s := by
  cases c with
  | flashTick =>
    unfold exec execFlashTick at h
    exact take_table h fun u => by simp
  | demandNotice f =>
    unfold exec execDemandNotice at h
    refine take_table h fun u => ?_
    split <;> simp
  | recordLampNotice lamps =>
    unfold exec execRecordLampNotice at h
    exact take_table h fun u => table_recomputeField ..
  | modeNotice =>
    unfold exec execModeNotice at h
    exact take_table h fun u => table_recomputeField ..
  | bulbCheckExpiryNotice =>
    unfold exec execBulbCheckExpiryNotice at h
    exact take_table h fun u => table_recomputeField ..
  | absReadyChangeNotice =>
    unfold exec execAbsReadyChangeNotice at h
    exact take_table h fun u => table_recomputeField ..
  | rideStartStep =>
    unfold exec execRideStartStep at h
    exact take_table h fun u => by simp
  | _ => cases hb

theorem store_table (hb : c.block = .store) (h : exec c s = .next t) : table t = table s := by
  cases c with
  | dirtyMark x =>
    unfold exec execDirtyMark at h
    refine takeUp_table h fun u => ?_
    dsimp only
    split <;> simp
  | _ => cases hb

/-- Of the qualifier's events the SUSPECT count alone leaves the table alone. -/
theorem qualifier_table (hb : c.block = .qualifier) (hc : changesTable c = false) (h : exec c s = .next t) :
    table t = table s := by
  cases c with
  | suspectCount =>
    unfold exec execSuspectCount at h
    exact takeUp_table h fun u => by simp
  | captureOpened | captureLost | captureReleased | slotNotice | qualifierClear => cases hc
  | _ => cases hb

theorem exec_table (hc : changesTable c = false) (h : exec c s = .next t) : table t = table s := by
  cases hb : c.block with
  | intake => exact intake_table hb h
  | qualifier => exact qualifier_table hb hc h
  | capture => exact capture_table hb h
  | manager => exact manager_table hb h
  | supervisor => exact supervisor_table hb hc h
  | lamps => exact lamps_table hb h
  | store => exact store_table hb h
  | attention => exact attention_table hb h
  | handler => exact handler_table hb h
  | outside => exact outside_table hb hc h

end Commands

end Sys2Proof.Qualifier
end

section
/-! PROOF. Obligation O5: every command keeps the fault table in order. The commands that reach an entry
or the build of TAKE
DEFINITIONS are taken one by one; every other leaves the table alone (`exec_table`). -/

namespace Sys2Proof.Qualifier
open Sys2Proof.Machine Sys2Proof.Requests Sys2Proof.Intake

/-! ### Entries that a command sets in order -/

/-- An entry as a part reset or a build leaves it, with its episode number and the definition found. -/
theorem builtEntry_wf {found : Option Definition} (h : ∀ d, found = some d → d.Wf) (e : FaultEntry) :
    (builtEntry found e).Wf := by
  rw [builtEntry_eq]
  exact ⟨fun hn => by cases hn; rfl, fun d hd => ⟨h d hd, rfl⟩, rfl, fun _ => rfl⟩

theorem undefined_wf (e : FaultEntry) : e.undefined.Wf := builtEntry_wf (found := none) nofun e

theorem reset_wf : FaultEntry.reset.Wf := undefined_wf FaultEntry.reset

/-- A defined entry reset, whatever becomes of its slot reference (R72, R74). -/
theorem untested_wf {e : FaultEntry} {d : Definition} (hd : e.defn = some d) (h : e.Wf) (i : Option SlotNo) :
    ({ e.untested with slot := i }).Wf :=
  wf_of_defined (d := d) hd (h.defined d hd).1 rfl rfl fun _ => rfl

theorem rideReset_wf {e : FaultEntry} (h : e.Wf) : (rideReset e).Wf := by
  unfold rideReset
  split
  next => exact h
  next hn =>
    obtain ⟨d, hd⟩ := Option.ne_none_iff_exists'.1 hn
    exact untested_wf hd h e.slot

/-- A SUSPECT entry may refer to a capture. -/
theorem captured_wf {e : FaultEntry} (h : e.Wf) (hd : e.defn ≠ none) (hp : e.phase = .suspect) (b : BufNo) :
    ({ e with capture := some b }).Wf where
  undefined := fun hn => absurd hn hd
  defined := h.defined
  trigger := h.trigger
  capture := fun hs => absurd hp hs

theorem lost_wf {e : FaultEntry} (h : e.Wf) (hd : e.defn ≠ none) :
    ({ e with captureLost := true, capture := none }).Wf where
  undefined := fun hn => absurd hn hd
  defined := h.defined
  trigger := h.trigger
  capture := fun _ => rfl

theorem released_wf {e : FaultEntry} (h : e.Wf) : ({ e with capture := none }).Wf where
  undefined := fun hn => by
    have he := h.undefined hn
    rw [he]
    rfl
  defined := h.defined
  trigger := h.trigger
  capture := fun _ => rfl

theorem slotted_wf {e : FaultEntry} (h : e.Wf) (hd : e.defn ≠ none) (i : Option SlotNo) (u : Bool) :
    ({ e with slot := i, unstored := u }).Wf where
  undefined := fun hn => absurd hn hd
  defined := h.defined
  trigger := h.trigger
  capture := h.capture

/-! ### The table with one entry, or the handler, changed -/

theorem faultsWf_set {s t : State} {f : FaultNo} {e : FaultEntry} (h : s.FaultsWf) (he : e.Wf)
    (hfaults : t.faults = s.faults.set f e) (htake : t.handler.take = s.handler.take) : t.FaultsWf := by
  refine ⟨fun g => ?_, fun r hr => h.found r (htake ▸ hr)⟩
  rw [hfaults, getElem_set]
  split
  exacts [he, h.entries g]

theorem faultsWf_updateFault {s : State} {f : FaultNo} {e : FaultEntry} (h : s.FaultsWf) (he : e.Wf) :
    (s.updateFault f e).FaultsWf :=
  faultsWf_set h he (s.updateFault_faults f e) (by rw [State.updateFault_frame])

theorem faultsWf_raiseAll {s : State} (h : s.FaultsWf) (cs : List Instr) : (s.raiseAll cs).FaultsWf :=
  faultsWf_of_table h (table_raiseAll s cs)

theorem faultsWf_setHandler {s : State} {x : Handler} (h : s.FaultsWf)
    (hx : ∀ r, x.take = some r → ∀ (f : FaultNo) (d : Definition), r.found[f] = some d → d.Wf) :
    (s.setHandler x).FaultsWf :=
  ⟨h.entries, hx⟩

theorem faultsWf_mapEntry {g : FaultEntry → FaultEntry} {ev : FaultNo → FaultEntry → List Instr}
    (hg : ∀ e, e.Wf → (g e).Wf) {s : State} (h : s.FaultsWf) (f : FaultNo) : (mapEntry g ev s f).FaultsWf :=
  faultsWf_raiseAll (faultsWf_updateFault h (hg _ (h.entries f))) _

/-- A pass over the faults keeps the table in order where it keeps each entry. -/
theorem faultsWf_mapAll {g : FaultEntry → FaultEntry} {ev : FaultNo → FaultEntry → List Instr}
    (hg : ∀ e, e.Wf → (g e).Wf) {s : State} (h : s.FaultsWf) (l : List FaultNo) :
    (l.foldl (mapEntry g ev) s).FaultsWf :=
  foldl_keeps (P := State.FaultsWf) (fun _ f hu => faultsWf_mapEntry hg hu f) l h

/-! ### The commands that reach the table -/

section Commands
variable {s t : State}

/-- A command of `takeUp` keeps the table in order where its effect does. -/
theorem takeUp_faultsWf {c : Instr} {f : State → State} (hx : s.takeUp c f = .next t) (h : s.FaultsWf)
    (hf : ∀ u, u.FaultsWf → (f u).FaultsWf) : t.FaultsWf := by
  have hbegin : (s.begin c).FaultsWf := faultsWf_of_table h (table_begin s c)
  rcases State.takeUp_next hx with rfl | ⟨-, -, rfl⟩
  exacts [hbegin, hf _ hbegin]

/-- A repeat count of 0 is read as 1 (R15). -/
theorem one_le_count (m : Mem) (a : Nat) : 1 ≤ (readReport m a).count := by
  unfold readReport
  dsimp only
  split <;> omega

theorem takeBottom_faultsWf (h : s.FaultsWf) (p : Port) : (s.takeBottom p).FaultsWf := by
  cases hv : s.validate p (readReport s.srr (recordAddress p (s.queues.get p).capacity (s.queues.get p).bottom)) with
  | reject reason =>
    rw [takeBottom_reject hv]
    exact faultsWf_of_table h (table_rejectRecord ..)
  | good f d o =>
    obtain ⟨-, -, hd, -, -⟩ := validate_good_iff.1 hv
    rw [takeBottom_good hv]
    exact faultsWf_raiseAll (faultsWf_updateFault h (applyReport_wf hd (h.entries f) o (one_le_count ..))) _

theorem recordTake_faultsWf {p : Port} (hx : exec (.recordTake p) s = .next t) (h : s.FaultsWf) : t.FaultsWf := by
  unfold exec execRecordTake at hx
  refine takeUp_faultsWf hx h fun u hu => ?_
  split
  · exact hu
  · exact faultsWf_of_table (takeBottom_faultsWf hu p) (table_advanceBottom ..)

theorem captureOpened_faultsWf {f : FaultNo} {b : BufNo} {ep : EpisodeId}
    (hx : exec (.captureOpened f b ep) s = .next t) (h : s.FaultsWf) : t.FaultsWf := by
  unfold exec execCaptureOpened at hx
  refine takeUp_faultsWf hx h fun u hu => ?_
  dsimp only
  split
  next hc => exact faultsWf_updateFault hu (captured_wf (hu.entries f) (Option.isSome_iff_ne_none.1 hc.1) hc.2.1 b)
  next => exact hu

theorem captureLost_faultsWf {f : FaultNo} {lost : LostCapture} (hx : exec (.captureLost f lost) s = .next t)
    (h : s.FaultsWf) : t.FaultsWf := by
  unfold exec execCaptureLost at hx
  refine takeUp_faultsWf hx h fun u hu => ?_
  dsimp only
  split
  next hc => exact faultsWf_updateFault hu (lost_wf (hu.entries f) (Option.isSome_iff_ne_none.1 hc.1))
  next => exact hu

theorem captureReleased_faultsWf {f : FaultNo} {b : BufNo} {ep : EpisodeId}
    (hx : exec (.captureReleased f b ep) s = .next t) (h : s.FaultsWf) : t.FaultsWf := by
  unfold exec execCaptureReleased at hx
  refine takeUp_faultsWf hx h fun u hu => ?_
  dsimp only
  split
  next => exact faultsWf_updateFault hu (released_wf (hu.entries f))
  next => exact hu

theorem slotNotice_faultsWf {f : FaultNo} {i : Option SlotNo} {x : Option Bool}
    (hx : exec (.slotNotice f i x) s = .next t) (h : s.FaultsWf) : t.FaultsWf := by
  unfold exec execSlotNotice at hx
  refine takeUp_faultsWf hx h fun u hu => ?_
  dsimp only
  split
  next hc => exact faultsWf_updateFault hu (slotted_wf (hu.entries f) (Option.isSome_iff_ne_none.1 hc) i _)
  next => exact hu

theorem qualifierClear_faultsWf {f : FaultNo} (hx : exec (.qualifierClear f) s = .next t) (h : s.FaultsWf) :
    t.FaultsWf := by
  unfold exec execQualifierClear at hx
  refine takeUp_faultsWf hx h fun u hu => ?_
  dsimp only
  split
  next => exact faultsWf_of_table hu (table_raise ..)
  next d hd => exact faultsWf_raiseAll (faultsWf_updateFault hu (untested_wf hd (hu.entries f) none)) _

/-- The ranges of R24 are those of the definitions in order. -/
theorem readDefinition_wf {m : Mem} {f : FaultNo} {d : Definition} (h : readDefinition m f = .valid d) : d.Wf := by
  unfold readDefinition at h
  dsimp only at h
  split at h
  next => cases h
  next =>
    split at h
    next => cases h
    next hvalid =>
      cases h
      have hbits := PartReset.bits_lt (m.read (fdtEntry f)) 13 3
      constructor <;> dsimp only <;> omega

theorem startTake_faultsWf (h : s.FaultsWf) : s.startTake.FaultsWf := by
  refine faultsWf_of_table (s := s.setHandler { s.handler with
    fdtLocked := true, take := some (takeCounts (readDefinition s.srr)) }) ?_ ?_
  · refine faultsWf_setHandler h fun r hr f d hd => ?_
    cases hr
    rw [found_getElem] at hd
    cases hv : readDefinition s.srr f with
    | valid d' =>
      rw [hv] at hd
      cases hd
      exact readDefinition_wf hv
    | unused | invalid => rw [hv] at hd; cases hd
  · rw [State.startTake, table_raise, table_takeMasks, table_takeMasks]

theorem building_take {x : Handler} {f : FaultNo} {r : TakeRun} (h : x.building = some (f, r)) : x.take = some r := by
  unfold Handler.building at h
  split at h
  next r' hr =>
    obtain ⟨f', -, he⟩ := Option.map_eq_some_iff.1 h
    cases he
    exact hr
  next => cases h

theorem buildNext_faultsWf (h : s.FaultsWf) {f : FaultNo} {r : TakeRun} (hr : s.handler.take = some r) :
    (s.buildNext f r).FaultsWf := by
  have hentry : (s.buildEntry r.found[f] f).FaultsWf :=
    faultsWf_mapEntry (ev := builtNotice r.found[f]) (fun e _ => builtEntry_wf (h.found r hr f) e) h f
  have hset : ∀ next : Option FaultNo, ((s.buildEntry r.found[f] f).setHandler
      { (s.buildEntry r.found[f] f).handler with take := some { r with next := next } }).FaultsWf := fun next =>
    faultsWf_setHandler hentry fun r' hr' => by
      cases hr'
      exact h.found r hr
  rcases s.buildNext_cases f r with ⟨hlt, he⟩ | ⟨-, he⟩ <;> rw [he]
  · exact faultsWf_of_table (hset _) (table_raise ..)
  · exact faultsWf_of_table (hset none) ((table_raise ..).trans (table_reconnect _))

theorem takeDefinitions_faultsWf (hx : exec .takeDefinitions s = .next t) (h : s.FaultsWf) : t.FaultsWf := by
  unfold exec execTakeDefinitions at hx
  refine takeUp_faultsWf hx h fun u hu => ?_
  split
  · exact faultsWf_of_table hu (table_refuse ..)
  · split
    next f r hb => exact buildNext_faultsWf hu (building_take hb)
    next => exact startTake_faultsWf hu

theorem takeDefinitionsBuildDone_faultsWf (hx : exec .takeDefinitionsBuildDone s = .next t) (h : s.FaultsWf) :
    t.FaultsWf := by
  unfold exec execTakeDefinitionsBuildDone at hx
  refine takeUp_faultsWf hx h fun u hu => ?_
  split
  · split
    · exact faultsWf_of_table (faultsWf_setHandler (x := { u.handler with take := none }) hu nofun)
        ((table_complete ..).trans (table_changeMode ..))
    · exact hu
  · exact hu

theorem returnToConfig_faultsWf (hx : exec .returnToConfig s = .next t) (h : s.FaultsWf) : t.FaultsWf := by
  unfold exec execReturnToConfig at hx
  refine takeUp_faultsWf hx h fun u hu => ?_
  split
  · exact faultsWf_of_table hu (table_refuse ..)
  · rw [undefineEntry_eq]
    exact faultsWf_of_table (faultsWf_mapAll (ev := undefinedNotice) (fun e _ => undefined_wf e) hu (List.finRange 128))
      (by simp)

theorem beginRide_faultsWf (h : s.FaultsWf) : s.beginRide.FaultsWf := by
  unfold State.beginRide
  rw [resetEntry_eq]
  dsimp only
  generalize hs : State.raiseAll _ _ = u
  have hu : u.FaultsWf := faultsWf_of_table h (by rw [← hs]; simp)
  exact faultsWf_of_table (faultsWf_mapAll (ev := rideResetEvents) (fun e => rideReset_wf) hu (List.finRange 128))
    (by simp)

theorem startRide_faultsWf (hx : exec .startRide s = .next t) (h : s.FaultsWf) : t.FaultsWf := by
  unfold exec execStartRide at hx
  refine takeUp_faultsWf hx h fun u hu => ?_
  split
  · split
    · exact hu
    · exact faultsWf_of_table hu (table_complete ..)
  · split
    · exact faultsWf_of_table hu (table_refuse ..)
    · exact beginRide_faultsWf hu

theorem partReset_faultsWf (hx : exec .partReset s = .next t) : t.FaultsWf := by
  obtain ⟨u, t1, t2, t', hx', hrun⟩ := PartReset.exec_partReset s
  have ht : t'.raise .loadComplete = t := Host.Outcome.next.inj (hx'.symm.trans hx)
  have hframe := PartReset.run_frame hrun
  have hfaults : t.faults = Vector.replicate 128 FaultEntry.reset := by
    rw [← ht, hframe]
    rfl
  have htake : t.handler.take = none := by
    rw [← ht, hframe]
    rfl
  refine ⟨fun f => ?_, fun r hr => ?_⟩
  · rw [hfaults, Fin.getElem_fin, Vector.getElem_replicate]
    exact reset_wf
  · rw [htake] at hr
    cases hr

/-- Every command keeps the fault table in order. -/
theorem exec_faultsWf {c : Instr} (hx : exec c s = .next t) (h : s.FaultsWf) : t.FaultsWf := by
  cases hc : changesTable c with
  | false => exact faultsWf_of_table h (exec_table hc hx)
  | true =>
    cases c with
    | recordTake => exact recordTake_faultsWf hx h
    | captureOpened => exact captureOpened_faultsWf hx h
    | captureLost => exact captureLost_faultsWf hx h
    | captureReleased => exact captureReleased_faultsWf hx h
    | slotNotice => exact slotNotice_faultsWf hx h
    | qualifierClear => exact qualifierClear_faultsWf hx h
    | takeDefinitions => exact takeDefinitions_faultsWf hx h
    | takeDefinitionsBuildDone => exact takeDefinitionsBuildDone_faultsWf hx h
    | returnToConfig => exact returnToConfig_faultsWf hx h
    | startRide => exact startRide_faultsWf hx h
    | partReset => exact partReset_faultsWf hx
    | _ => cases hc

end Commands

/-- Settles O5: a step idles or runs the command at the front, which keeps the table in order. -/
theorem stepKeepsFaultTable : Obligations.StepKeepsFaultTable := by
  intro s t h hx
  unfold step at hx
  split at hx
  · cases hx
    exact h
  · exact exec_faultsWf hx (faultsWf_of_table h rfl)

end Sys2Proof.Qualifier
end

section
/-! PROOF. Obligations O31 and O32: the notices to the qualifier (R70, R71) and the clear of a fault
(R72, R74, R126), each one
change of its fault's entry. -/

namespace Sys2Proof.Qualifier
open Sys2Proof.Machine Sys2Proof.Requests

/-! ### One entry changed by a command -/

/-- The frame of a command that changes the entry of one fault and raises no event. -/
structure EntryChanged (c : Instr) (f : FaultNo) (e : FaultEntry) (s t : State) : Prop where
  faults : t.faults = s.faults.set f e
  frame  : t = { s with inFlight := s.inFlight.erase c, stores := t.stores, srr := t.srr, faults := t.faults }
  reach  : SrrOnly s t (inFaultView f)
  view   : FaultViewKept s t f

theorem updateFault_changed (c : Instr) (f : FaultNo) (e : FaultEntry) (s : State) :
    EntryChanged c f e s ((s.begin c).updateFault f e) := by
  have hfaults : ((s.begin c).updateFault f e).faults = s.faults.set f e := State.updateFault_faults ..
  refine ⟨hfaults, ?_, fun a ha => State.updateFault_read _ f e a ha, ?_⟩
  · rw [hfaults]
    exact State.updateFault_frame ..
  · exact faultViewKept_congr (updateFault_viewKept (s.begin c) f e) rfl rfl (fun _ _ => rfl) fun _ _ => rfl

/-! ### The notices, each an equation -/

theorem inEpisode_iff {e : FaultEntry} {ep : EpisodeId} :
    e.inEpisode ep = true ↔ e.trigger = some ep.time ∧ e.episode = ep.number := by
  simp [FaultEntry.inEpisode]

/-- An entry that a notice leaves as it stands is rewritten by itself. -/
theorem updateFault_ite (s : State) (f : FaultNo) {p q : Prop} [Decidable p] [Decidable q] (hpq : p ↔ q)
    (e : FaultEntry) :
    (if p then s.updateFault f e else s) = s.updateFault f (if q then e else s.faults[f]) := by
  by_cases hp : p
  · rw [if_pos hp, if_pos (hpq.1 hp)]
  · rw [if_neg hp, if_neg (hp ∘ hpq.2), updateFault_self]

section Notices
variable {s : State} (h : s.Running) (f : FaultNo)
include h

theorem exec_captureOpened (b : BufNo) (ep : EpisodeId) :
    exec (.captureOpened f b ep) s = .next ((s.begin (.captureOpened f b ep)).updateFault f
      (if (s.faults[f]).defn ≠ none ∧ (s.faults[f]).phase = .suspect ∧ (s.faults[f]).trigger = some ep.time ∧
        (s.faults[f]).episode = ep.number then { s.faults[f] with capture := some b } else s.faults[f])) := by
  change execCaptureOpened f b ep s = _
  rw [execCaptureOpened, State.takeUp_free h.1 h.2]
  exact congrArg _ (updateFault_ite _ f (by rw [Option.isSome_iff_ne_none, inEpisode_iff]; rfl) _)

theorem exec_captureLost (lost : LostCapture) :
    exec (.captureLost f lost) s = .next ((s.begin (.captureLost f lost)).updateFault f
      (if (s.faults[f]).defn ≠ none ∧ (s.faults[f]).trigger = some lost.episode.time ∧
        (s.faults[f]).episode = lost.episode.number then { s.faults[f] with captureLost := true, capture := none }
      else s.faults[f])) := by
  change execCaptureLost f lost s = _
  rw [execCaptureLost, State.takeUp_free h.1 h.2]
  exact congrArg _ (updateFault_ite _ f (by rw [Option.isSome_iff_ne_none, inEpisode_iff]; rfl) _)

theorem exec_captureReleased (b : BufNo) (ep : EpisodeId) :
    exec (.captureReleased f b ep) s = .next ((s.begin (.captureReleased f b ep)).updateFault f
      (if (s.faults[f]).capture = some b then { s.faults[f] with capture := none } else s.faults[f])) := by
  change execCaptureReleased f b ep s = _
  rw [execCaptureReleased, State.takeUp_free h.1 h.2]
  exact congrArg _ (updateFault_ite _ f Iff.rfl _)

theorem exec_slotNotice (i : Option SlotNo) (u : Option Bool) :
    exec (.slotNotice f i u) s = .next ((s.begin (.slotNotice f i u)).updateFault f
      (if (s.faults[f]).defn ≠ none then
        { s.faults[f] with slot := i, unstored := u.getD (s.faults[f]).unstored }
      else s.faults[f])) := by
  change execSlotNotice f i u s = _
  rw [execSlotNotice, State.takeUp_free h.1 h.2]
  exact congrArg _ (updateFault_ite _ f (by rw [Option.isSome_iff_ne_none]; rfl) _)

end Notices

/-- Settles O31: each notice changes the one entry, or rewrites it by itself. -/
theorem noticesReachTheEntry : Obligations.NoticesReachTheEntry := by
  intro s f h e Takes
  have takes {c : Instr} {e' : FaultEntry} (hx : exec c s = .next ((s.begin c).updateFault f e')) : Takes c e' := by
    obtain ⟨hfaults, hframe, hreach, hview⟩ := updateFault_changed c f e' s
    exact ⟨_, hx, hfaults, hframe, hreach, hview⟩
  exact ⟨fun b ep => takes (exec_captureOpened h f b ep), fun ep o => takes (exec_captureLost h f ⟨ep, o⟩),
    fun b ep => takes (exec_captureReleased h f b ep), fun i u => takes (exec_slotNotice h f i u)⟩

/-! ### The clear of a fault -/

/-- The entry after a clear, and what the clear raises before its clear event (R72, R74). -/
def clearedEntry (e : FaultEntry) : FaultEntry := if e.defn = none then e else { e.untested with slot := none }

def clearingEvents (f : FaultNo) (e : FaultEntry) : List Instr :=
  match e.defn with
  | none => []
  | some d => discardEvents f e ++ [.captureUnitClear f] ++ demandEvents f d e.phase .untested

theorem exec_qualifierClear {s : State} (h : s.Running) (f : FaultNo) :
    exec (.qualifierClear f) s = .next (((s.begin (.qualifierClear f)).updateFault f (clearedEntry s.faults[f])).raiseAll
      (clearingEvents f s.faults[f] ++ [.clearEvent f])) := by
  change execQualifierClear f s = _
  rw [execQualifierClear, State.takeUp_free h.1 h.2]
  unfold clearedEntry clearingEvents
  dsimp only
  rw [State.begin_faults]
  cases hd : (s.faults[f]).defn with
  | none =>
    rw [if_pos rfl, ← State.begin_faults s (.qualifierClear f), updateFault_self]
    rfl
  | some d =>
    rw [if_neg nofun]

/-- Settles O32: one entry changed, and the events of the clear. -/
theorem clearResetsTheEntry : Obligations.ClearResetsTheEntry := by
  intro s f h e
  obtain ⟨hfaults, hframe, hreach, hview⟩ :=
    updateFault_changed (.qualifierClear f) f (clearedEntry s.faults[f]) s
  have hinFlight : ((s.begin (.qualifierClear f)).updateFault f (clearedEntry s.faults[f])).inFlight =
      s.inFlight.erase (.qualifierClear f) := State.updateFault_inFlight ..
  have hx := exec_qualifierClear h f
  generalize (s.begin (.qualifierClear f)).updateFault f (clearedEntry s.faults[f]) = u
    at hfaults hframe hreach hview hinFlight hx
  have hraises : Raises (.qualifierClear f) s (u.raiseAll (clearingEvents f e ++ [.clearEvent f]))
      (clearingEvents f e ++ [.clearEvent f]) := congrArg (· ++ _) hinFlight
  refine ⟨_, hx, by rw [hframe]; rfl, hreach, hview, fun hd => ?_, fun d hd => ?_⟩
  · have hevents : clearingEvents f e ++ [.clearEvent f] = [.clearEvent f] := by rw [clearingEvents, hd]; rfl
    rw [clearedEntry, if_pos hd] at hfaults
    exact ⟨hfaults.trans (set_getElem ..), (congrArg (Raises _ s _) hevents).mp hraises⟩
  · have hevents : clearingEvents f e =
        discardEvents f e ++ [.captureUnitClear f] ++ demandEvents f d e.phase .untested := by
      rw [clearingEvents, hd]
    rw [clearedEntry, if_neg fun hn => by cases hd.symm.trans hn] at hfaults
    exact ⟨hfaults, (congrArg (fun l => Raises _ s _ (l ++ _)) hevents).mp hraises⟩

end Sys2Proof.Qualifier
end

section
/-! SUPPORT. The opening of a capture (R87, R90 to R92): what the newcomer's buffer holds, and what its
samples and its header
store. -/

namespace Sys2Proof.Qualifier
open Sys2Proof.Machine Sys2Proof.Requests

/-! ### Samples copied into a buffer (R19, R90) -/

section Copy
variable {b : BufNo} {xs : List Sample} (hlen : ∀ x ∈ xs, x.words.length = 8)
include hlen

/-- Copying reaches the places of the samples, and no other word. -/
theorem copySamples_reach (s : State) (k : Nat) :
    SrrOnly s (s.copySamples b k xs) fun a => placeAddress b k ≤ a ∧ a < placeAddress b (k + xs.length) := by
  induction xs generalizing s k with
  | nil => exact fun _ _ => rfl
  | cons x xs ih =>
    obtain ⟨hx, hxs⟩ := List.forall_mem_cons.1 hlen
    have hput : SrrOnly s (s.putAll (wordsAt (placeAddress b k) x.words)) fun a =>
        placeAddress b k ≤ a ∧ a < placeAddress b k + 8 := fun a ha => by
      rw [State.putAll_srr, Mem.read_writeAll_other]
      rintro w hw rfl
      exact ha (hx ▸ mem_wordsAt hw)
    refine srrOnly_mono (srrOnly_trans hput (ih hxs _ (k + 1))) fun a ha => ?_
    rw [List.length_cons]
    unfold placeAddress at ha ⊢
    omega

/-- Every sample stands in its place. -/
theorem copySamples_place (s : State) (k : Nat) {j : Nat} {x : Sample} (hj : xs[j]? = some x) :
    (s.copySamples b k xs).srr.readRange (placeAddress b (k + j)) 8 = x.words := by
  induction xs generalizing s k j with
  | nil => cases hj
  | cons y xs ih =>
    obtain ⟨hy, hxs⟩ := List.forall_mem_cons.1 hlen
    cases j with
    | zero =>
      obtain rfl : y = x := Option.some.inj hj
      have hread := readRange_writeAll_wordsAt s.srr (placeAddress b k) y.words
      rw [hy, ← State.putAll_srr] at hread
      refine Eq.trans (readRange_congr fun a h1 h2 => ?_) hread
      refine copySamples_reach hxs _ (k + 1) a fun ha => ?_
      unfold placeAddress at ha h1 h2
      omega
    | succ j =>
      rw [show k + (j + 1) = k + 1 + j by omega]
      exact ih hxs _ (k + 1) hj

end Copy

theorem presentSamples_length (s : State) (ring : Port) : ∀ x ∈ s.presentSamples ring, x.words.length = 8 := by
  intro x hx
  obtain ⟨i, -, rfl⟩ := List.mem_map.1 hx
  exact PartReset.readRange_length ..

/-! ### The newcomer (R87, R90, R91) -/

/-- The samples present at or before T, and those above it. -/
def samplesBefore (s : State) (ring : Port) (T : Time) : List Sample :=
  (s.presentSamples ring).filter fun x => decide (x.time ≤ T)

def samplesAfter (s : State) (ring : Port) (T : Time) : List Sample :=
  (s.presentSamples ring).filter fun x => decide (T < x.time)

/-- The samples that a newcomer finds (R90). -/
def newcomerSamples (s : State) (ep : EpisodeId) (ring : Port) (pre post : BitVec 4) : List Sample :=
  lastOf pre.toNat (samplesBefore s ring ep.time) ++ (samplesAfter s ring ep.time).take post.toNat

/-- The capture that a newcomer opens (R87, R91). -/
def newcomer (s : State) (f : FaultNo) (ep : EpisodeId) (ring : Port) (pre post priority : BitVec 4) : Capture :=
  let pres := lastOf pre.toNat (samplesBefore s ring ep.time)
  let posts := (samplesAfter s ring ep.time).take post.toNat
  { holder := .provisional, fault := f, priority := priority, ring := ring, episode := ep,
    state := openingState posts.length post.toNat s.sup.rideClock ep,
    preWanted := pre.toNat, preGot := pres.length, postWanted := post.toNat, postGot := posts.length,
    preShort := decide (pres.length < pre.toNat), gap := false }

theorem length_lastOf {α : Type} (n : Nat) (l : List α) : (lastOf n l).length = min n l.length := by
  rw [lastOf, List.length_drop]
  omega

section Newcomer
variable (s : State) (f : FaultNo) (ep : EpisodeId) (ring : Port) (pre post priority : BitVec 4)

theorem newcomer_is : Newcomer s f ep ring pre post priority (newcomer s f ep ring pre post priority) :=
  ⟨rfl, rfl, rfl, rfl, rfl, rfl, rfl, length_lastOf .., List.length_take .., rfl, rfl, rfl⟩

/-- The samples that stand in the buffer, as the statement counts them. -/
theorem newcomerSamples_eq :
    (let c := newcomer s f ep ring pre post priority
     (samplesBefore s ring ep.time).drop ((samplesBefore s ring ep.time).length - c.preGot) ++
        (samplesAfter s ring ep.time).take c.postGot) = newcomerSamples s ep ring pre post := by
  unfold newcomer newcomerSamples lastOf
  simp only [List.length_drop, List.length_take]
  congr 1
  · congr 1
    omega
  · rw [List.take_eq_take_iff]
    omega

theorem newcomerSamples_words : ∀ x ∈ newcomerSamples s ep ring pre post, x.words.length = 8 := fun x hx =>
  presentSamples_length s ring x <| (List.mem_append.1 hx).elim
    (fun h => List.mem_of_mem_filter (List.mem_of_mem_drop h))
    fun h => List.mem_of_mem_filter (List.mem_of_mem_take h)

theorem newcomerSamples_length :
    (newcomerSamples s ep ring pre post).length =
      samplesCounted (some (newcomer s f ep ring pre post priority)) := List.length_append ..

end Newcomer

/-! ### The opening -/

/-- What an opening in buffer `b` comes to (R87, R90 to R92). -/
structure Opened (b : BufNo) (f : FaultNo) (ep : EpisodeId) (ring : Port) (c : Capture) (s t : State) : Prop where
  frame   : t = { s with pool := s.pool.set b (some c), srr := t.srr, stores := t.stores,
                         inFlight := s.inFlight ++ [.captureOpened f b ep] }
  samples : NewcomerSamples s t b ep ring c
  reach   : SrrOnly s t fun a => bufferBase b ≤ a ∧ a < placeAddress b (samplesCounted (some c))
  header  : HeaderRewritten s t b

theorem openCapture_opened (s : State) (b : BufNo) (f : FaultNo) (ep : EpisodeId) (ring : Port)
    (pre post priority : BitVec 4) :
    Opened b f ep ring (newcomer s f ep ring pre post priority) s (s.openCapture b f ep ring pre post priority) := by
  have hopen : s.openCapture b f ep ring pre post priority =
      (((s.setBuffer b (some (newcomer s f ep ring pre post priority))).copySamples b 0
        (newcomerSamples s ep ring pre post)).publishHeader b).raise (.captureOpened f b ep) := rfl
  have hframe := State.copySamples_frame (s.setBuffer b (some (newcomer s f ep ring pre post priority))) b 0
    (newcomerSamples s ep ring pre post)
  have hwords := newcomerSamples_words s ep ring pre post
  have hcopied := copySamples_reach (b := b) hwords (s.setBuffer b (some (newcomer s f ep ring pre post priority))) 0
  have hplace := fun j x => copySamples_place (b := b) hwords
    (s.setBuffer b (some (newcomer s f ep ring pre post priority))) 0 (j := j) (x := x)
  rw [Nat.zero_add, newcomerSamples_length s f ep ring pre post priority] at hcopied
  rw [hopen]
  generalize (s.setBuffer b (some (newcomer s f ep ring pre post priority))).copySamples b 0
    (newcomerSamples s ep ring pre post) = u at hframe hcopied hplace
  obtain ⟨hheader, hcounter⟩ := publishHeader_rewritten u b
  have hreach := publishHeader_reach u b
  have hbase : placeAddress b 0 = bufferBase b + 8 := rfl
  refine ⟨?_, ?_, ?_, hheader, ?_⟩
  · rw [State.publishHeader, State.rewrite_eq, State.putAll_eq, hframe]
    rfl
  · intro k x hx
    rw [← hplace k x (by rw [← newcomerSamples_eq s f ep ring pre post priority]; exact hx), Nat.zero_add]
    refine readRange_congr fun a h1 _ => hreach a fun ha => ?_
    unfold inHeader at ha
    unfold placeAddress at h1
    omega
  · refine srrOnly_mono (srrOnly_trans (fun a ha => hcopied a ha) (fun a ha => hreach a ha)) fun a ha => ?_
    unfold inHeader at ha
    unfold placeAddress at ha hbase ⊢
    omega
  · refine hcounter.trans (congrArg (· + 2) (hcopied _ fun ha => ?_))
    omega

end Sys2Proof.Qualifier
end

section
/-! PROOF. Obligation O40: a trigger that finds the pool empty takes over the weakest provisional
capture, or is lost (R88,
R89). -/

namespace Sys2Proof.Qualifier
open Sys2Proof.Machine Sys2Proof.Requests

/-! ### The order of takeover (R88) -/

/-- A provisional capture that a newcomer of that priority may end. -/
def Candidate (priority : BitVec 4) (c : Capture) : Prop := c.holder = .provisional ∧ c.priority < priority

/-- What decides between two candidates: priority, then trigger time, then buffer, the lowest first. -/
def weakness (b : BufNo) (c : Capture) : Nat ×ₗ Nat ×ₗ Nat :=
  toLex (c.priority.toNat, toLex (c.episode.time.toNat, b.val))

theorem weakness_le_iff {b b' : BufNo} {c c' : Capture} :
    weakness b c ≤ weakness b' c' ↔
      c.priority < c'.priority ∨ (c.priority = c'.priority ∧
        (c.episode.time < c'.episode.time ∨ (c.episode.time = c'.episode.time ∧ b ≤ b'))) := by
  simp only [weakness, Prod.Lex.toLex_le_toLex, BitVec.lt_def, BitVec.toNat_inj, Fin.le_def]

theorem buffer_of_weakness {b b' : BufNo} {c c' : Capture} (h : weakness b c = weakness b' c') : b = b' := by
  simp only [weakness, EmbeddingLike.apply_eq_iff_eq, Prod.mk.injEq] at h
  exact Fin.ext h.2.2

/-- A later buffer's capture ends before that of an earlier one just where it is weaker. -/
theorem yields_iff {b b' : BufNo} (h : b'.val < b.val) (c c' : Capture) :
    c.yields c' = true ↔ weakness b c < weakness b' c' := by
  have hb : ¬ b.val < b'.val := by omega
  simp only [Capture.yields, weakness, Prod.Lex.toLex_lt_toLex, Bool.or_eq_true, Bool.and_eq_true, decide_eq_true_eq,
    BitVec.lt_def, BitVec.toNat_inj, hb, and_false, or_false]

/-! ### The victim -/

/-- One buffer looked at in the search for the victim. -/
def weaker (pool : Vector (Option Capture) 24) (priority : BitVec 4) (best : Option (BufNo × Capture)) (b : BufNo) :
    Option (BufNo × Capture) :=
  match pool[b] with
  | some c =>
    if c.holder = .provisional ∧ c.priority < priority then
      match best with
      | none => some (b, c)
      | some (b', c') => if c.yields c' then some (b, c) else some (b', c')
    else best
  | none => best

theorem victim_eq (s : State) (priority : BitVec 4) :
    s.victim priority = ((List.finRange 24).foldl (weaker s.pool priority) none).map Prod.fst := rfl

/-- Of the candidates in the buffers below `k`, `best` is the weakest. -/
structure Weakest (pool : Vector (Option Capture) 24) (priority : BitVec 4) (k : Nat)
    (best : Option (BufNo × Capture)) :
    Prop where
  holds : ∀ b c, best = some (b, c) → b.val < k ∧ pool[b] = some c ∧ Candidate priority c
  least : ∀ (b' : BufNo) (c' : Capture), b'.val < k → pool[b'] = some c' → Candidate priority c' →
    ∃ b c, best = some (b, c) ∧ weakness b c ≤ weakness b' c'

section Search
variable {pool : Vector (Option Capture) 24} {priority : BitVec 4} {best : Option (BufNo × Capture)} {b : BufNo}

/-- A buffer without a candidate changes nothing. -/
theorem weakest_skip (h : Weakest pool priority b.val best) (hb : ∀ c, pool[b] = some c → ¬ Candidate priority c) :
    Weakest pool priority (b.val + 1) best where
  holds := fun b' c' he => (h.holds b' c' he).imp_left Nat.lt_succ_of_lt
  least := fun b' c' hlt hc' hcand => by
    have hlt' : b'.val < b.val :=
      (Nat.lt_succ_iff_lt_or_eq.1 hlt).resolve_right fun he => hb c' (Fin.ext he ▸ hc') hcand
    exact h.least b' c' hlt' hc' hcand

/-- A candidate weaker than every one before it becomes the weakest. -/
theorem weakest_take {c : Capture} (hc : pool[b] = some c) (hcand : Candidate priority c)
    (hless : ∀ (b' : BufNo) (c' : Capture), b'.val < b.val → pool[b'] = some c' → Candidate priority c' →
      weakness b c ≤ weakness b' c') : Weakest pool priority (b.val + 1) (some (b, c)) where
  holds := fun b' c' he => by
    cases he
    exact ⟨Nat.lt_succ_self _, hc, hcand⟩
  least := fun b' c' hlt hc' hcand' => by
    refine ⟨b, c, rfl, ?_⟩
    rcases Nat.lt_succ_iff_lt_or_eq.1 hlt with hlt | he
    · exact hless b' c' hlt hc' hcand'
    · obtain rfl := Fin.ext he
      cases hc.symm.trans hc'
      exact le_refl _

theorem weakest_step (h : Weakest pool priority b.val best) :
    Weakest pool priority (b.val + 1) (weaker pool priority best b) := by
  unfold weaker
  cases hc : pool[b] with
  | none => exact weakest_skip h fun c hc' => by cases hc.symm.trans hc'
  | some c =>
    dsimp only
    split
    next hcand =>
      cases best with
      | none =>
        refine weakest_take hc hcand fun b' c' hlt hc' hcand' => ?_
        obtain ⟨_, _, he, _⟩ := h.least b' c' hlt hc' hcand'
        cases he
      | some x =>
        obtain ⟨b0, c0⟩ := x
        obtain ⟨hlt0, hc0, hcand0⟩ := h.holds b0 c0 rfl
        have hleast : ∀ (b' : BufNo) (c' : Capture), b'.val < b.val → pool[b'] = some c' → Candidate priority c' →
            weakness b0 c0 ≤ weakness b' c' := fun b' c' hlt hc' hcand' => by
          obtain ⟨_, _, he, hle⟩ := h.least b' c' hlt hc' hcand'
          cases he
          exact hle
        dsimp only
        split
        next hy =>
          exact weakest_take hc hcand fun b' c' hlt hc' hcand' =>
            ((yields_iff hlt0 c c0).1 hy).le.trans (hleast b' c' hlt hc' hcand')
        next hy =>
          have hle : weakness b0 c0 ≤ weakness b c := not_lt.1 fun hlt => hy ((yields_iff hlt0 c c0).2 hlt)
          refine ⟨fun b' c' he => ?_, fun b' c' hlt hc' hcand' => ⟨b0, c0, rfl, ?_⟩⟩
          · cases he
            exact ⟨by omega, hc0, hcand0⟩
          · rcases Nat.lt_succ_iff_lt_or_eq.1 hlt with hlt | he
            · exact hleast b' c' hlt hc' hcand'
            · obtain rfl := Fin.ext he
              cases hc.symm.trans hc'
              exact hle
    next hcand =>
      exact weakest_skip h fun c' hc' => by
        cases hc.symm.trans hc'
        exact hcand

end Search

theorem weakest_found (s : State) (priority : BitVec 4) :
    Weakest s.pool priority 24 ((List.finRange 24).foldl (weaker s.pool priority) none) :=
  PartReset.foldl_finRange_induction (P := Weakest s.pool priority)
    ⟨nofun, fun _ _ hlt => absurd hlt (Nat.not_lt_zero _)⟩
    fun _ _ => weakest_step

theorem victim_none {s : State} {priority : BitVec 4}
    (h : ∀ (b : BufNo) (c : Capture), s.pool[b] = some c → ¬ Candidate priority c) : s.victim priority = none := by
  have hfound := weakest_found s priority
  rw [victim_eq]
  generalize (List.finRange 24).foldl (weaker s.pool priority) none = best at hfound
  cases best with
  | none => rfl
  | some x =>
    obtain ⟨-, hc, hcand⟩ := hfound.holds x.1 x.2 rfl
    exact absurd hcand (h _ _ hc)

theorem victim_some {s : State} {priority : BitVec 4} {b : BufNo} {v : Capture} (hv : s.pool[b] = some v)
    (hcand : Candidate priority v)
    (hleast : ∀ (b' : BufNo) (v' : Capture), s.pool[b'] = some v' → Candidate priority v' →
      weakness b v ≤ weakness b' v') : s.victim priority = some b := by
  have hfound := weakest_found s priority
  obtain ⟨b0, c0, he, hle⟩ := hfound.least b v b.isLt hv hcand
  obtain ⟨-, hc0, hcand0⟩ := hfound.holds b0 c0 he
  have hb : b0 = b := buffer_of_weakness (le_antisymm hle (hleast b0 c0 hc0 hcand0))
  rw [victim_eq, he, hb]
  rfl

/-! ### A trigger with the pool empty -/

/-- A pass over the buffers that concerns none of them changes nothing. -/
theorem forBuffers_nothing {s : State} {which : Capture → Bool} {change : State → BufNo → Capture → State}
    (h : ∀ (b : BufNo) (c : Capture), s.pool[b] = some c → which c = false) : s.forBuffers which change = s :=
  State.forBuffers_keeps (P := fun u => u = s) (fun u b c hu hc hw => by
    rw [hu] at hc
    rw [h b c hc] at hw
    cases hw) rfl

section Trigger
variable {s : State} {f : FaultNo} {ep : EpisodeId} {ring : Port} {pre post priority : BitVec 4}

/-- No buffer is free, and none holds a stale capture of the fault: the victim decides. -/
theorem exec_trigger_full (h : s.Running)
    (hfull : ∀ b : BufNo, s.pool[b] ≠ none ∧ ∀ c, s.pool[b] = some c → ¬ (c.holder = .provisional ∧ c.fault = f)) :
    let u := s.begin (.trigger f ep ring pre post priority)
    exec (.trigger f ep ring pre post priority) s = .next
      (match s.victim priority with
        | some b =>
          match s.pool[b] with
          | some c => (u.raise (.captureLost c.fault ⟨c.episode, some b⟩)).openCapture b f ep ring pre post priority
          | none => u
        | none => u.raise (.captureLost f ⟨ep, none⟩)) := by
  have hstale : (s.begin (.trigger f ep ring pre post priority)).forBuffers
      (fun c => decide (c.holder = .provisional) && decide (c.fault = f))
      (fun s b c => (s.freeBuffer b).raise (.captureReleased f b c.episode)) =
        s.begin (.trigger f ep ring pre post priority) :=
    forBuffers_nothing fun b c hc => by
      rw [← Bool.decide_and, decide_eq_false_iff_not]
      exact (hfull b).2 c hc
  have hnone : (s.begin (.trigger f ep ring pre post priority)).findBuffer Option.isNone = none :=
    List.find?_eq_none.2 fun b _ hb => (hfull b).1 (Option.isNone_iff_eq_none.1 hb)
  change execTrigger f ep ring pre post priority s = _
  rw [execTrigger, State.takeUp_free h.1 h.2]
  dsimp only
  rw [hstale, hnone]
  rfl

theorem exec_trigger_lost (h : s.Running)
    (hfull : ∀ b : BufNo, s.pool[b] ≠ none ∧ ∀ c, s.pool[b] = some c → ¬ (c.holder = .provisional ∧ c.fault = f))
    (hnone : ∀ (b : BufNo) (c : Capture), s.pool[b] = some c → ¬ Candidate priority c) :
    exec (.trigger f ep ring pre post priority) s = .next
      ((s.begin (.trigger f ep ring pre post priority)).raise (.captureLost f ⟨ep, none⟩)) := by
  rw [exec_trigger_full h hfull, victim_none hnone]

theorem exec_trigger_takeover (h : s.Running)
    (hfull : ∀ b : BufNo, s.pool[b] ≠ none ∧ ∀ c, s.pool[b] = some c → ¬ (c.holder = .provisional ∧ c.fault = f))
    {b : BufNo} {v : Capture} (hv : s.pool[b] = some v) (hcand : Candidate priority v)
    (hleast : ∀ (b' : BufNo) (v' : Capture), s.pool[b'] = some v' → Candidate priority v' →
      weakness b v ≤ weakness b' v') :
    exec (.trigger f ep ring pre post priority) s = .next
      (((s.begin (.trigger f ep ring pre post priority)).raise
        (.captureLost v.fault ⟨v.episode, some b⟩)).openCapture b f ep ring pre post priority) := by
  rw [exec_trigger_full h hfull, victim_some hv hcand hleast]
  dsimp only
  rw [hv]

end Trigger

/-- Settles O40: the victim is the weakest candidate, and its buffer is opened for the newcomer. -/
theorem triggerTakesOverOrLoses : Obligations.TriggerTakesOverOrLoses := by
  intro s f ep ring pre post priority h _ hfull cmd candidate
  refine ⟨fun hnone => ?_, fun b v hv hcand hleast => ?_⟩
  · exact ⟨_, exec_trigger_lost h hfull fun b c hc hcand => hnone b ⟨c, hc, hcand⟩, rfl, rfl⟩
  · have hcandidate {c : Capture} (hc : candidate (some c)) : Candidate priority c := by
      obtain ⟨c', he, hholder, hpriority⟩ := hc
      cases he
      exact ⟨hholder, hpriority⟩
    have hx := exec_trigger_takeover (ep := ep) (ring := ring) (pre := pre) (post := post) h hfull hv (hcandidate hcand)
      fun b' v' hv' hc' => weakness_le_iff.2 (hleast b' v' hv' ⟨v', rfl, hc'⟩)
    obtain ⟨hframe, hsamples, hreach, hheader⟩ :=
      openCapture_opened ((s.begin cmd).raise (.captureLost v.fault ⟨v.episode, some b⟩)) b f ep ring pre post priority
    change exec cmd s = .next (State.openCapture ((s.begin cmd).raise _) b f ep ring pre post priority) at hx
    generalize ((s.begin cmd).raise (.captureLost v.fault ⟨v.episode, some b⟩)).openCapture b f ep ring pre post priority
      = t at hframe hsamples hreach hheader hx
    have hpool : t.pool[b] = some (newcomer s f ep ring pre post priority) := by
      rw [hframe]
      exact (getElem_set ..).trans (if_pos rfl)
    refine ⟨t, newcomer s f ep ring pre post priority, hx, ?_, newcomer_is .., hsamples, ?_, hheader, ?_⟩
    · rw [hframe]
      rfl
    · rw [hpool]
      exact hreach
    · rw [Raises, hframe]
      exact List.append_assoc ..

end Sys2Proof.Qualifier
end
